-- ==== Sys2Proof/Word.lean ====
section
/-! DEFINITION. The plainest types of the model: a byte and a run of bytes.
The spec (00_scope.md, Conventions) counts memory in bytes and lines of 64 bytes; multi-byte fields are little-endian
(Machine/Bytes.lean). Counts, addresses in use, positions and scores are natural or whole numbers, as the spec states its
arithmetic on them; only what the spec itself treats as bits (a byte, a mask, a strap choice, a checksum) is a bit vector. -/

namespace Sys2Proof

/-- One byte of a line, a record or a frame. -/
abbrev Byte := BitVec 8

end Sys2Proof
end

