-- ==== Sys2Proof/Config.lean ====
section
/-! DEFINITION. What the spec fixes once for the whole part (base addresses, ring sizes), and the values it leaves open. -/

namespace Sys2Proof.Config

/-- FREE VALUE (log 4). A flag byte holds 1 for set and 0 for clear (11_record_and_message_layouts.md, opening paragraph).
The spec does not say how a flag byte of an order record or a staging image with any other value is taken: whether it
counts as set is left open. -/
opaque oddFlag : Byte → Bool

/-- Control area offset of the cursor page (R163). -/
def cursorPage : Nat := 0x00000
/-- Control area offset of the order post index (R53, R163). -/
def postIndexAt : Nat := 0x01000
/-- Control area offset of the notice consumed index (R53, R163). -/
def consumedIndexAt : Nat := 0x01040
/-- Control area offset of the order ring (R163). -/
def orderRing : Nat := 0x02000
/-- Control area offset of the notice ring (R163). -/
def noticeRing : Nat := 0x04000
/-- Control area offset of the zone records (R89, R163). -/
def zoneRecords : Nat := 0x08000
/-- Control area offset of the staging area (R163). -/
def stagingArea : Nat := 0x10000
/-- Control area offset of the shot mirror (R163). -/
def shotMirror : Nat := 0x40000
/-- Bytes in one granule (00_scope.md, Conventions: 1 MiB). -/
def granule : Nat := 2 ^ 20
/-- Bytes in one line (00_scope.md, Conventions). -/
def line : Nat := 64
/-- Base of shot space (00_scope.md, Address space; R1). -/
def shotSpace : Nat := 0x800000000
/-- Base of preview space (R1). -/
def previewSpace : Nat := 0xA00000000
/-- First unassigned address (R51). -/
def unassignedSpace : Nat := 0xB00000000
/-- Slots of the Link Port (R48). -/
def linkSlots : Nat := 32
/-- Capacity of the pass-through queue (R56). -/
def passThroughPlaces : Nat := 32
/-- Capacity of the inserted-write queue (R56). -/
def writePlaces : Nat := 32
/-- Capacity of the internal-read queue (R56). -/
def readPlaces : Nat := 16
/-- Wait count at which a head of an own queue is granted first (R57). -/
def waitLimit : Nat := 8
/-- Places of the tap FIFO (R67). -/
def fifoPlaces : Nat := 128
/-- Places of the replay queue (R131). -/
def replayPlaces : Nat := 16
/-- Unconsumed notices at which the notice ring is full (R171). -/
def noticePlaces : Nat := 255
/-- Entries of the lens message queue (R112). -/
def messagePlaces : Nat := 8
/-- Consecutive timeouts that make a lens UNRESPONSIVE (R106). -/
def timeoutLimit : Nat := 3
/-- Microseconds an exchange lasts after the request (R104: 1 ms). -/
def exchangeTime : Nat := 1000
/-- Microseconds of the IDENT retry timer and of the poll timer (R102, R107: 50 ms). -/
def lensTimer : Nat := 50000
/-- Tether entries that may be SENDING at once (R158). -/
def sendingLimit : Nat := 4
/-- Largest value of a 32-bit count. -/
def max32 : Nat := 2 ^ 32 - 1

end Sys2Proof.Config
end

