-- ==== Sys2Proof/Syntax.lean ====
section
/-! DEFINITION. The commands of the part: one constructor of `Instr` per row of spec/opcode_table.json, in the table's order.
A command is one whole and indivisible step of the part (95_what_each_step_holds.md). A row that is set off by something
outside the part carries what the outside gives: the strap pins, the link request, the reply bytes on the lens line. A row
that the part takes by itself carries only the choice that the spec leaves to timing (which read's data DRAM returns, which
own queue lets a held request in, whose capture timer runs out). The order rows carry nothing: the parameters of an order
come from the record and the image that the Order Unit has fetched (R167, R168), and stand in the state. -/

namespace Sys2Proof

/-- Read or write, with a write's 64 data bytes and its byte mask (R47): bit i of the mask is entry i. -/
inductive ReqKind where
  | read
  | write (data : List Byte) (mask : BitVec 64)
  deriving DecidableEq, Repr

/-- A frame-link request with the fields of R47. -/
structure Request where
  /-- source tag 0..7 -/
  tag : BitVec 3
  /-- transaction number 0..31 -/
  txn : BitVec 5
  /-- 36-bit frame-link address; the six lowest bits are disregarded -/
  addr : BitVec 36
  kind : ReqKind
  deriving DecidableEq, Repr

/-- The two queues of the part's own traffic (R56). -/
inductive OwnQueue where
  | insertedWrites
  | internalReads
  deriving DecidableEq, Repr

/-- The commands, one per row of the table. -/
inductive Instr where
  /-- POWER_ON_RESET (R177): with the levels of the CA-SEL and MEM-SIZE pins. -/
  | powerOnReset (caSel memSize : BitVec 2)
  /-- START_UP_COMPLETE (R177, R178). -/
  | startUpComplete
  /-- LINK_RESET (R58). -/
  | linkReset
  /-- REQUEST_ARRIVES (R48). -/
  | requestArrives (r : Request)
  /-- TAKE_WRITE (R50). -/
  | takeWrite
  /-- TAKE_READ (R50). -/
  | takeRead
  /-- DRAM_GRANT (R57). -/
  | dramGrant
  /-- OWN_REQUEST_ENTERS (R56): the queue whose first waiting request enters. -/
  | ownRequestEnters (q : OwnQueue)
  /-- READ_DATA_RETURN (R54): the place, in grant order, of the pass-through read whose data returns. -/
  | readDataReturn (k : Nat)
  /-- READ_RESPONSE_SENT (R54). -/
  | readResponseSent
  /-- ORDER_RECORD_FETCHED (R167). -/
  | orderRecordFetched
  /-- STAGING_IMAGE_FETCHED (R168). -/
  | stagingImageFetched
  /-- UNKNOWN_ORDER (R167). -/
  | unknownOrder
  /-- SET_POOL (R20, R21). -/
  | setPool
  /-- SET_POOL_MARKS_ONLY (R22). -/
  | setPoolMarksOnly
  /-- SET_PROFILE (R27). -/
  | setProfile
  /-- SELECT_PROFILE (R28). -/
  | selectProfile
  /-- SEAL (R36). -/
  | sealOrder
  /-- DISCARD (R39). -/
  | discard
  /-- PROTECT (R41). -/
  | protect
  /-- UNPROTECT (R41). -/
  | unprotect
  /-- RATE (R42, R161). -/
  | rate
  /-- SET_FOCUS (R79, R80). -/
  | setFocus
  /-- FOCUS_START (R94). -/
  | focusStart
  /-- LENS_MESSAGE (R112). -/
  | lensMessage
  /-- LOAD_TONE (R116). -/
  | loadTone
  /-- REDEVELOP (R138). -/
  | redevelop
  /-- CARD_DONE (R146). -/
  | cardDone
  /-- CARD_RETRY (R147). -/
  | cardRetry
  /-- SET_SELECTION (R151). -/
  | setSelection
  /-- TETHER_DONE (R159, R160). -/
  | tetherDone
  /-- SEND_NOW (R162). -/
  | sendNow
  /-- SET_NOTICE (R176). -/
  | setNotice
  /-- CAPTURE_TIMEOUT (R34): the window whose capture timer runs out. -/
  | captureTimeout (w : Fin 64)
  /-- MEASUREMENT_COMPLETE (R93). -/
  | measurementComplete
  /-- INLINE_LINE_CONSUMED (R129). -/
  | inlineLineConsumed
  /-- REPLAY_LINE_RETURNED (R132). -/
  | replayLineReturned
  /-- LENS_PRESENT_ACTIVE (R102). -/
  | lensPresentActive
  /-- LENS_PRESENT_INACTIVE (R103). -/
  | lensPresentInactive
  /-- LENS_EXCHANGE_END (R105): the bytes that the lens has sent within the exchange. -/
  | lensExchangeEnd (reply : List Byte)
  /-- IDENT_RETRY_TIMER_EXPIRY (R102). -/
  | identRetryTimerExpiry
  /-- POLL_TIMER_EXPIRY (R107). -/
  | pollTimerExpiry
  /-- NOTICE_AGE_EXPIRY (R174). -/
  | noticeAgeExpiry
  /-- ATTENTION_PULSE_END (R175). -/
  | attentionPulseEnd
  deriving DecidableEq, Repr

end Sys2Proof
end

