-- ==== Sys2Proof/WellFormed.lean ====
section
/-! DEFINITION. Which commands are well formed: a write request carries exactly the 64 data bytes of a line (R47). Every
other operand is held to its range by its type. -/

namespace Sys2Proof

/-- R47: the data of a write-line request is 64 bytes. -/
def Request.wf (r : Request) : Bool :=
  match r.kind with
  | .read => true
  | .write data _ => data.length == 64

/-- Whether a command's operands are ones that the part's connections can carry. -/
def Instr.wf : Instr → Bool
  | .requestArrives r => r.wf
  | _ => true

end Sys2Proof
end

