-- ==== Sys2Proof/Decode.lean ====
section
/-! DEFINITION. The command that a word spells. spec/opcode_table.json gives no row any bits ("fields" is empty in all 44
rows and the reader read no match or mask): the part has no command words, so no word spells a command. Firmware's orders do
have bytes; they are data in DRAM, and the Order Unit's own decoding of them stands in Machine/Operands.lean. -/

namespace Sys2Proof

/-- The command that a word of `nbits` bits spells: none, for the table gives no row any bits. -/
def decodeTableWord (_nbits _w : Nat) : Option Instr :=
  none

end Sys2Proof
end

