-- ==== Sys2Proof/Machine/State.lean ====
section
/-! DEFINITION. The state of the part as plain data, block by block as 00_scope.md names the blocks, and the state after
power-on reset. Every field cites the rule that names it; INVENTORY.md lists them all with their reset values. -/

namespace Sys2Proof.Machine

/-! ### Small kinds shared by several blocks -/

/-- Source class of a request (R3, R47). -/
inductive SourceClass where
  | processor | capture | card | tether | display | other
  deriving DecidableEq, Repr

/-- One value per source class. -/
structure PerClass (α : Type) where
  processor : α
  capture : α
  card : α
  tether : α
  display : α
  other : α
  deriving DecidableEq, Repr

/-- One value per colour channel. -/
structure Rgb (α : Type) where
  r : α
  g : α
  b : α
  deriving DecidableEq, Repr

/-- A timer of the part. A running timer holds the time of the reference clock at which it runs out; the remaining time is
that time less the clock. -/
inductive Timer where
  | stopped
  | running (deadline : Nat)
  deriving DecidableEq, Repr

/-- Fault kinds (R8, 11.1). -/
inductive FaultKind where
  | notOpen | access | length | previewNotReady | poolFence | noMemory | unassigned
  deriving DecidableEq, Repr

/-- State of a zone or of a focus check (11.1). -/
inductive ZoneState where
  | noData | lowContrast | unsure | near | far | inFocus | none
  deriving DecidableEq, Repr

/-- Mosaic phase (00_scope.md, Conventions). -/
inductive Mosaic where
  | rFirst | gr | gb | bFirst
  deriving DecidableEq, Repr

/-- Quad position of a sample: red, first green, second green, blue. -/
inductive QuadPos where
  | red | green1 | green2 | blue
  deriving DecidableEq, Repr

/-- The black levels, one per quad position (R26). -/
structure BlackLevels where
  red : Nat
  green1 : Nat
  green2 : Nat
  blue : Nat
  deriving DecidableEq, Repr

/-- Site table (R76): P, r0, Q, aL, aR. -/
structure SiteTable where
  rowPeriod : Nat
  firstRow : Nat
  columnPeriod : Nat
  phaseL : Nat
  phaseR : Nat
  deriving DecidableEq, Repr

/-- Zone grid (R77): x0, y0, ZW, ZH, NZC, NZR. -/
structure ZoneGrid where
  x0 : Nat
  y0 : Nat
  zoneWidth : Nat
  zoneHeight : Nat
  columns : Nat
  rows : Nat
  deriving DecidableEq, Repr

/-- Development set (R115): scale, gains and matrix row by row, tone table. -/
structure DevSet where
  scale : Nat
  gains : Rgb Nat
  matrix : Rgb (Rgb Int)
  tone : Nat
  deriving DecidableEq, Repr

/-- Capture profile (R26). -/
structure Profile where
  width : Nat
  height : Nat
  mosaic : Mosaic
  black : BlackLevels
  white : Nat
  /-- capture timeout in ms; 0 means none -/
  timeout : Nat
  storyKey : Nat
  rating : Nat
  site : SiteTable
  grid : ZoneGrid
  /-- still kz, unsigned 8.8 -/
  kz : Nat
  developed : Bool
  devSet : DevSet
  cardRequired : Bool
  tetherEvaluated : Bool
  deriving DecidableEq, Repr

/-! ### The shot record (R23, R25, chapter 2.1) -/

/-- Main state of a shot (R24). -/
inductive ShotState where
  | free | capturing | sealed | discarding
  deriving DecidableEq, Repr

/-- Tap status (R37, R63). -/
inductive TapStatus where
  | inOrder | disordered | incomplete
  deriving DecidableEq, Repr

/-- Development status (R25). -/
inductive DevStatus where
  | none | inline | queued | replaying | done | failed
  deriving DecidableEq, Repr

/-- Reason held with a development status (R25). -/
inductive DevReason where
  | overflow | disorder | incomplete | queueFull | engineBusy
  deriving DecidableEq, Repr

/-- Card status (R25). -/
inductive CardStatus where
  | notRequired | pending | reading | done | failed
  deriving DecidableEq, Repr

/-- Verify status (R145). -/
inductive VerifyStatus where
  | none | running | matched | mismatch | unverified
  deriving DecidableEq, Repr

/-- Tether status (R25). -/
inductive TetherStatus where
  | notRequired | undecided | notSelected | queued | sending | sent | abandoned
  deriving DecidableEq, Repr

/-- What is sent down the tether (R149, R150). -/
inductive SendWhat where
  | preview | raw | previewThenRaw
  deriving DecidableEq, Repr

/-- Where a CRC or a focus check came from (R65, R133, R97, R98). -/
inductive Origin where
  | inline | replay
  deriving DecidableEq, Repr

/-- The capture snapshot (R31). -/
structure Snapshot where
  zone : Fin 63
  state : ZoneState
  q : Int
  conf : Nat
  exposure : Option Nat
  deriving DecidableEq, Repr

/-- A still focus check (R97). -/
structure FocusCheck where
  state : ZoneState
  q : Int
  conf : Nat
  deriving DecidableEq, Repr

/-- The first fault of a shot (R9). -/
structure FirstFault where
  cls : SourceClass
  kind : FaultKind
  offset : Nat
  deriving DecidableEq, Repr

/-- The profile copy of a shot: its slot index and its content. -/
structure ProfileCopy where
  slot : Fin 4
  profile : Profile
  deriving DecidableEq, Repr

/-- One shot record. The window is the record's own place in the table. -/
structure Shot where
  state : ShotState
  seq : Nat
  copy : Option ProfileCopy
  width : Nat
  height : Nat
  rawLength : Nat
  rawMapped : Nat
  previewMapped : Nat
  reservation : Nat
  snapshot : Option Snapshot
  tapStatus : TapStatus
  crc : Option (BitVec 32 × Origin)
  focusCheck : Option FocusCheck
  dev : DevStatus
  reason : Option DevReason
  checkOnly : Bool
  devSet : Option DevSet
  clip : Rgb Nat
  hist : Rgb (Vector Nat 256)
  card : CardStatus
  cardBytes : Nat
  verify : VerifyStatus
  tether : TetherStatus
  sendWhat : Option SendWhat
  tetherRaw : Nat
  tetherPreview : Nat
  rating : Nat
  urgent : Bool
  storyKey : Nat
  protect : Bool
  faults : PerClass Nat
  firstFault : Option FirstFault
  timer : Timer
  deriving DecidableEq, Repr

/-! ### Window Map and Granule Pool (chapter 1) -/

/-- The two granule maps of a window (R2). -/
structure WindowMaps where
  raw : Vector (Option Nat) 128
  preview : Vector (Option Nat) 64
  deriving DecidableEq, Repr

/-- The Granule Pool (R12, R19). The free count, the total reservation and available are counted from the queue and the
records (R13). -/
structure Pool where
  first : Nat
  size : Nat
  free : List Nat
  low : Nat
  high : Nat
  armed : Bool
  deriving DecidableEq, Repr

/-! ### Shot Table beside its records (chapter 2) -/

/-- Profile slots, sequence counter and capture cursor (R26, R32, R33). -/
structure ShotTable where
  profiles : Vector (Option Profile) 4
  active : Fin 4
  seqCounter : Nat
  lastOpened : Fin 64
  cursor : Option (Fin 64)
  admissible : Bool
  deriving DecidableEq, Repr

/-! ### Link Port and Memory Port (chapter 3) -/

/-- A read that has been taken and goes to DRAM. `respond` falls at a link reset (R58); `accepted` names the verify pass and
the line that accepted it (R142). The data is what R55 fixes at its entry. -/
structure PassRead where
  txn : BitVec 5
  data : List Byte
  respond : Bool
  accepted : Option (Nat × Nat)
  deriving DecidableEq, Repr

/-- What a pass-through entry does at DRAM. -/
inductive PassKind where
  | read (r : PassRead)
  | write (data : List Byte) (mask : BitVec 64)
  deriving DecidableEq, Repr

/-- An entry of the pass-through queue (R56). -/
structure PassEntry where
  addr : Nat
  kind : PassKind
  entry : Nat
  deriving DecidableEq, Repr

/-- A response ready to be sent (R54); `ok` is status OK, otherwise ABORTED. -/
structure Response where
  txn : BitVec 5
  data : List Byte
  ok : Bool
  deriving DecidableEq, Repr

/-- The Link Port: requests not yet taken in arrival order, ready responses in the order they became ready, the credits that
the system processor holds (R48), and the response last sent (the link's output). -/
structure LinkPort where
  waiting : List Request
  ready : List Response
  credits : Nat
  lastSent : Option Response
  deriving DecidableEq, Repr

/-- An entry of the inserted-write queue with its time of entry and wait count (R56). -/
structure WriteEntry where
  addr : Nat
  data : List Byte
  mask : BitVec 64
  entry : Nat
  wait : Nat
  deriving DecidableEq, Repr

/-- What an internal read is for. A dropped read belongs to a job that has been dropped: its data is discarded (R135). -/
inductive ReadPurpose where
  | orderRecord | staging | replay | dropped
  deriving DecidableEq, Repr

/-- An entry of the internal-read queue with its time of entry, its wait count and the data R55 fixes at its entry. -/
structure ReadEntry where
  purpose : ReadPurpose
  addr : Nat
  data : List Byte
  entry : Nat
  wait : Nat
  deriving DecidableEq, Repr

/-- Notice kinds (R170). -/
inductive NoticeKind where
  | started | shotOpened | shotSealed | shotReleased | captureRefused | accessFault | plainFault | tapDisorder
  | developed | developFailed | focusChange | focusCheck | lensFault | lensReply | verified | verifyMismatch
  | tetherReady | poolLow | noticeOverflow | order
  deriving DecidableEq, Repr

/-- A notice as a block hands it to the Notice Unit (R171, 11.2): window byte (0xFF for none), shot sequence number, zone or
tag, detail bytes, and for a PLAIN FAULT its class. -/
structure Notice where
  kind : NoticeKind
  window : Byte
  seq : Nat
  subject : Nat
  details : List Byte
  fault : Option SourceClass
  deriving DecidableEq, Repr

/-- Order statuses (R169). -/
inductive OrderStatus where
  | done | accepted | unknown | badParam | state | busy | tooEarly | full | verifyFailed | noLens
  deriving DecidableEq, Repr

/-- A line that a block of the part writes. Lines of the cursor page, zone records and shot mirror carry their values at the
moment they are inserted (R45, R164); a preview line carries its bytes. -/
inductive OwnLine where
  | cursor (n : Fin 9)
  | zone (z : Fin 63)
  | mirror (w : Fin 64) (l : Fin 64)
  | preview (addr : Nat) (data : List Byte) (mask : BitVec 64)
  deriving DecidableEq, Repr

/-- How far a notice has come on its way to the Notice Unit: it waits for the lines that carry its change (R46, R165), `owed` when it
is a notice of the order in progress, which comes before that order's status byte (R169); or it has been handed over. -/
inductive NoticeStage where
  | waits | owed | handed
  deriving DecidableEq, Repr

/-- The part's own work that ends in an inserted write or waits behind one (R56: the work that depends on a held write
waits). In the order it is to be done: each piece stands where the block that it comes from found the queue full, except for pieces
that still wait for others (log 9). -/
inductive OwnWork where
  /-- insert a line -/
  | line (l : OwnLine)
  /-- the Notice Unit takes a notice (R171) once it has been handed over -/
  | notice (n : Notice) (stage : NoticeStage)
  /-- the Notice Unit writes NOTICE OVERFLOW (R173) -/
  | overflow
  /-- the Notice Unit evaluates the attention condition after the cursor page line that follows a notice (R171) -/
  | attention
  /-- the Order Unit writes the status of the order in progress and goes on (R169); `due` tells whether the order's own notices have
  been handed over -/
  | orderStatus (st : OrderStatus) (due : Bool)
  /-- the order is no longer in progress (R169 step 4) -/
  | nextOrder
  deriving DecidableEq, Repr

/-- The Memory Port (R56, R57): its three queues, the reads granted and not yet returned, the part's own work and reads that
wait for a place, and the number of the next entry into the memory path. -/
structure MemoryPort where
  pass : List PassEntry
  writes : List WriteEntry
  reads : List ReadEntry
  passFlight : List PassRead
  readFlight : List ReadEntry
  work : List OwnWork
  heldReads : List (ReadPurpose × Nat)
  nextEntry : Nat
  deriving DecidableEq, Repr

/-! ### Readout Taps (chapter 4) -/

/-- Left and right profiles of one zone (5.3). -/
structure Profiles where
  left : Vector Nat 32
  right : Vector Nat 32
  deriving DecidableEq, Repr

/-- A still accumulation: a zone and its profiles (R82). -/
structure StillAcc where
  zone : Fin 63
  sums : Profiles
  deriving DecidableEq, Repr

/-- A bound shot-tap context (R61) with the still accumulation attached to it (R82). The still-check range is named by its
zone (R96). -/
structure TapContext where
  window : Fin 64
  next : Nat
  following : Bool
  crc : BitVec 32
  range : Option (Fin 63)
  inlineFeed : Bool
  still : Option StillAcc
  deriving DecidableEq, Repr

/-- An entry of the tap FIFO (R67). -/
structure FifoEntry where
  window : Fin 64
  line : Nat
  data : List Byte
  deriving DecidableEq, Repr

/-- The shot taps and the tap FIFO (R61, R67). -/
structure Taps where
  contexts : Vector (Option TapContext) 2
  fifo : List FifoEntry
  deriving DecidableEq, Repr

/-- The two accumulator banks. -/
inductive BankId where
  | a | b
  deriving DecidableEq, Repr

/-- The followed view (R69). -/
structure Followed where
  buffer : Nat
  next : Nat
  bank : BankId
  deriving DecidableEq, Repr

/-- The view tap (R69); the bank states stand with the banks in the Focus Unit. -/
structure ViewTap where
  followed : Option Followed
  lastGridLine : Nat
  sequence : Nat
  skipped : Nat
  deriving DecidableEq, Repr

/-! ### Focus Unit (chapter 5) -/

/-- Change notice mode of a zone (R90). -/
inductive ChangeMode where
  | off | enterIn | leaveIn | anyChange
  deriving DecidableEq, Repr

/-- The focus setup (R78). -/
structure FocusSetup where
  bufferCount : Nat
  bases : Vector Nat 4
  width : Nat
  height : Nat
  mosaic : Mosaic
  black : BlackLevels
  site : SiteTable
  grid : ZoneGrid
  kz : Nat
  search : Nat
  cmin : Nat
  cthr : Nat
  tol : Nat
  hys : Nat
  stick : Nat
  deadband : Nat
  modes : Vector ChangeMode 63
  deriving DecidableEq, Repr

/-- State of a bank (R69). -/
inductive BankState where
  | idle | accumulating | full | measuring
  deriving DecidableEq, Repr

/-- An accumulator bank (5.3) with what is recorded against it: the view sequence, the positions at its two events (R92),
and while it is MEASURING the setup its measurement began with and whether a grid change was taken since (R93). -/
structure Bank where
  state : BankState
  sums : Vector Profiles 63
  view : Nat
  atStart : Option Nat
  atLast : Option Nat
  setup : Option FocusSetup
  gridChanged : Bool
  deriving DecidableEq, Repr

/-- A zone record (R89). -/
structure ZoneRecord where
  state : ZoneState
  q : Int
  conf : Nat
  ratio : Nat
  steps : Int
  beyond : Bool
  exposure : Option Nat
  view : Nat
  primary : Bool
  deriving DecidableEq, Repr

/-- Follow mode (R94). -/
inductive FollowMode where
  | off | single | continuous
  deriving DecidableEq, Repr

/-- Follow state (R94, R95). -/
inductive FollowState where
  | idle | following | locked
  deriving DecidableEq, Repr

/-- The Focus Unit. Bit z of the candidate set stands for zone z (11.2). -/
structure FocusUnit where
  setup : Option FocusSetup
  bankA : Bank
  bankB : Bank
  zones : Vector ZoneRecord 63
  primary : Option (Fin 63)
  mode : FollowMode
  follow : FollowState
  candidates : BitVec 64
  deriving DecidableEq, Repr

/-! ### Lens Line Controller (chapter 6) -/

/-- Lens state (R101). -/
inductive LensState where
  | absent | identifying | ready | unresponsive
  deriving DecidableEq, Repr

/-- Lens information (R100). -/
structure LensInfo where
  identity : Nat
  minimum : Nat
  maximum : Nat
  deriving DecidableEq, Repr

/-- A position report (R100). -/
structure PositionReport where
  position : Nat
  moving : Bool
  deriving DecidableEq, Repr

/-- An entry of the lens message queue (R112). -/
structure LensMessage where
  tag : Nat
  kind : Byte
  data : List Byte
  deriving DecidableEq, Repr

/-- What an exchange on the lens line carries (R104). -/
inductive LensRequest where
  | ident
  | status
  | drive (target : Nat) (speed : Nat)
  | stop
  | message (m : LensMessage)
  deriving DecidableEq, Repr

/-- The exchange in flight: its request, the frame sent, the time it began, and whether a shot opened during a DRIVE
exchange whose end decides the STOP (R111). -/
structure Exchange where
  request : LensRequest
  frame : List Byte
  since : Nat
  judgeStop : Bool
  deriving DecidableEq, Repr

/-- The previous exchange (R105). -/
inductive Previous where
  | none | message | other
  deriving DecidableEq, Repr

/-- The Lens Line Controller (R100). -/
structure Lens where
  state : LensState
  info : Option LensInfo
  report : Option PositionReport
  timeouts : Nat
  exchange : Option Exchange
  previous : Previous
  drive : Option Nat
  messages : List LensMessage
  statusPending : Bool
  stopPending : Bool
  identPending : Bool
  pollPending : Bool
  identRetry : Timer
  poll : Timer
  deriving DecidableEq, Repr

/-! ### Development Engine (chapter 7) -/

/-- Kind of a replay job (R131). -/
inductive JobKind where
  | develop | check
  deriving DecidableEq, Repr

/-- Saved progress of a suspended job, beside its next input row (R134). -/
structure Progress where
  crc : Option (BitVec 32)
  hist : Rgb (Vector Nat 256)
  clip : Rgb Nat
  still : Option StillAcc
  deriving DecidableEq, Repr

/-- A job record of the replay queue (R131). -/
structure Job where
  window : Fin 64
  seq : Nat
  kind : JobKind
  set : Option DevSet
  nextRow : Nat
  begun : Bool
  saved : Option Progress
  deriving DecidableEq, Repr

/-- What the engine is doing (R127). -/
inductive Activity where
  | idle
  | inline (w : Fin 64)
  | replay
  deriving DecidableEq, Repr

/-- The running job's own state (R127): the next line it uses, the bytes of the output row it is forming, histograms, clip
counts, running CRC, the replay still accumulation (R98), and whether a formed row's lines still wait for insertion. -/
structure Running where
  nextLine : Nat
  acc : List Byte
  hist : Rgb (Vector Nat 256)
  clip : Rgb Nat
  crc : Option (BitVec 32)
  still : Option StillAcc
  rowWaits : Bool
  deriving DecidableEq, Repr

/-- The raw line a replay job waits for: none, one answered by zeros from an empty map entry (R132), or one read from DRAM. -/
inductive ReplayLine where
  | none | zeros | issued
  deriving DecidableEq, Repr

/-- The Development Engine (R116, R127, R131). -/
structure Engine where
  activity : Activity
  suspend : Bool
  stop : Option (Fin 64)
  run : Running
  replayLine : ReplayLine
  tones : Vector (Vector Nat 257) 2
  queue : List Job
  deriving DecidableEq, Repr

/-! ### Verify Unit (chapter 8) -/

/-- A line accepted and not yet taken in, with its data once that has returned (R142). -/
structure AcceptedLine where
  line : Nat
  data : Option (List Byte)
  deriving DecidableEq, Repr

/-- A bound verify context (R141). `pass` tells one binding of a context from another. -/
structure VerifyContext where
  window : Fin 64
  seq : Nat
  pass : Nat
  next : Nat
  crc : BitVec 32
  accepted : List AcceptedLine
  deriving DecidableEq, Repr

/-- The Verify Unit (R141). -/
structure VerifyUnit where
  contexts : Vector (Option VerifyContext) 4
  nextPass : Nat
  deriving DecidableEq, Repr

/-! ### Tether Queue (chapter 9) -/

/-- Focus requirement of a selection rule (R150). -/
inductive FocusNeed where
  | any | inOnly | notMissed
  deriving DecidableEq, Repr

/-- A selection rule (R150): `story` is none for ANY, `send` is none for SKIP. -/
structure SelectionRule where
  enabled : Bool
  story : Option Nat
  minRating : Nat
  focus : FocusNeed
  send : Option SendWhat
  deriving DecidableEq, Repr

/-- An entry of the tether queue (R154). -/
structure TetherEntry where
  window : Fin 64
  seq : Nat
  send : SendWhat
  urgent : Bool
  ready : Bool
  forced : Bool
  deriving DecidableEq, Repr

/-- The published tether head (R156): `raw` is set when the first part is RAW. -/
structure TetherHead where
  window : Fin 64
  seq : Nat
  raw : Bool
  previewLength : Nat
  rawLength : Nat
  deriving DecidableEq, Repr

/-- The Tether Queue (R149). -/
structure TetherQueue where
  rules : Vector SelectionRule 16
  queue : List TetherEntry
  head : Option TetherHead
  deriving DecidableEq, Repr

/-! ### Order Unit and Notice Unit (chapter 10) -/

/-- An order record as fetched (11.2). -/
structure OrderRecord where
  code : Nat
  notify : Bool
  tag : Nat
  window : Nat
  staging : Nat
  seq : Nat
  params : List Byte
  deriving DecidableEq, Repr

/-- How far the order at the taken index has come (R167 to R169). -/
inductive OrderPhase where
  /-- no order in progress -/
  | idle
  /-- its record is being read -/
  | fetching
  /-- its staging image is being read -/
  | imageFetch (o : OrderRecord)
  /-- handed to the block that owns it, with its image if it carries one -/
  | dispatched (o : OrderRecord) (image : List Byte)
  /-- its status is decided and is being written back -/
  | completing (o : OrderRecord)
  deriving DecidableEq, Repr

/-- The Order Unit (R166). -/
structure OrderUnit where
  post : Nat
  taken : Nat
  phase : OrderPhase
  deriving DecidableEq, Repr

/-- An unconsumed notice: its write time and urgent mark (R170). -/
structure NoticeMark where
  time : Nat
  urgent : Bool
  deriving DecidableEq, Repr

/-- Outstanding mark of a plain-fault class (R11): clear, set for a notice handed over and not yet written, or set with the
slot of the written notice. -/
inductive Outstanding where
  | clear | handed
  | slot (k : Nat)
  deriving DecidableEq, Repr

/-- Mode of the attention line (R175). -/
inductive AttentionMode where
  | level | pulse
  deriving DecidableEq, Repr

/-- The Notice Unit (R170, R174 to R176). `unconsumed` lists the marks of the unconsumed notices, oldest first. -/
structure NoticeUnit where
  writeIndex : Nat
  consumedIndex : Nat
  number : Nat
  overflow : Nat
  unconsumed : List NoticeMark
  outstanding : PerClass Outstanding
  batch : Nat
  age : Nat
  mode : AttentionMode
  pulseLength : Nat
  /-- whether the attention condition stood at its last evaluation -/
  standing : Bool
  /-- the attention line -/
  line : Bool
  pulse : Timer
  deriving DecidableEq, Repr

/-- How far the part has come since power-on reset (R177, R178). -/
inductive StartPhase where
  | initialising | started | strapFault
  deriving DecidableEq, Repr

/-- DRAM as listed bytes: addresses strictly rising, no listed byte equal to what an unlisted address reads as (log 2). It
holds every write that has entered the memory path (R55). -/
abbrev Memory := List Host.Cell

/-- The state of the part, with the queue of commands that wait. -/
structure State where
  phase : StartPhase
  /-- CA-SEL as sampled (R177) -/
  caSel : BitVec 2
  /-- MEM-SIZE as sampled (R177) -/
  memSize : BitVec 2
  /-- level of the lens-present input -/
  lensPin : Bool
  /-- reference clock, in microseconds (log 5) -/
  now : Nat
  mem : Memory
  link : LinkPort
  port : MemoryPort
  maps : Vector WindowMaps 64
  pool : Pool
  shots : Vector Shot 64
  table : ShotTable
  taps : Taps
  view : ViewTap
  focus : FocusUnit
  lens : Lens
  engine : Engine
  verify : VerifyUnit
  tether : TetherQueue
  order : OrderUnit
  notice : NoticeUnit
  /-- plain-fault counters (R11) -/
  plainFaults : PerClass Nat
  /-- commands that wait, first in first out -/
  pending : List Instr
  deriving DecidableEq, Repr

/-- Why the machine stops. -/
inductive Fault where
  /-- Raised by TAKE_WRITE, INLINE_LINE_CONSUMED and REPLAY_LINE_RETURNED when an allocation finds the shot's reservation at 0 or
  the free granule queue empty. R6 says that neither comes about ("keeps the shot's reservation at 1 or more whenever one of its
  writes finds an empty entry within its length", "the queue is not empty when an allocation is made"), and gives no effect for
  it. Safe: the model stops where the spec says nothing. -/
  | allocationBeyondReservation
  deriving DecidableEq, Repr

/-- Why a command has no meaning. -/
inductive Refusal where
  /-- The command is not modelled. -/
  | notModelled (mnemonic : String)
  /-- Raised by REQUEST_ARRIVES for a write request whose data is not 64 bytes (R47): no such request can be carried by the
  link. Safe. -/
  | illFormed
  deriving DecidableEq, Repr

/-! ### Reset values -/

/-- Three histograms of zeros. -/
def zeroHist : Rgb (Vector Nat 256) :=
  ⟨.replicate 256 0, .replicate 256 0, .replicate 256 0⟩

/-- A FREE record (chapter 2.1, R23). -/
def freeShot : Shot where
  state := .free
  seq := 0
  copy := none
  width := 0
  height := 0
  rawLength := 0
  rawMapped := 0
  previewMapped := 0
  reservation := 0
  snapshot := none
  tapStatus := .inOrder
  crc := none
  focusCheck := none
  dev := .none
  reason := none
  checkOnly := false
  devSet := none
  clip := ⟨0, 0, 0⟩
  hist := zeroHist
  card := .notRequired
  cardBytes := 0
  verify := .none
  tether := .notRequired
  sendWhat := none
  tetherRaw := 0
  tetherPreview := 0
  rating := 0
  urgent := false
  storyKey := 0
  protect := false
  faults := ⟨0, 0, 0, 0, 0, 0⟩
  firstFault := none
  timer := .stopped

/-- Empty maps (R2). -/
def emptyMaps : WindowMaps := ⟨.replicate 128 none, .replicate 64 none⟩

/-- Profiles with every sum 0 (R81). -/
def zeroProfiles : Profiles := ⟨.replicate 32 0, .replicate 32 0⟩

/-- An IDLE, cleared bank (R73, R81). -/
def idleBank : Bank where
  state := .idle
  sums := .replicate 63 zeroProfiles
  view := 0
  atStart := none
  atLast := none
  setup := none
  gridChanged := false

/-- A zone record holding NO-DATA (R80, R89). -/
def noDataZone : ZoneRecord where
  state := .noData
  q := 0
  conf := 0
  ratio := 0
  steps := 0
  beyond := false
  exposure := none
  view := 0
  primary := false

/-- A running job's state at a job's beginning (R126, R132). -/
def freshRun : Running where
  nextLine := 0
  acc := []
  hist := zeroHist
  clip := ⟨0, 0, 0⟩
  crc := none
  still := none
  rowWaits := false

/-- A disabled selection rule (R149; its other contents are a DESIGN CHOICE, log 8). -/
def disabledRule : SelectionRule where
  enabled := false
  story := some 0
  minRating := 0
  focus := .any
  send := none

/-- The part right after a power-on reset that samples the given straps, with lens-present at the given level (R177). -/
def State.powerOn (caSel memSize : BitVec 2) (lensPin : Bool) (pending : List Instr) : State where
  phase := .initialising
  caSel := caSel
  memSize := memSize
  lensPin := lensPin
  now := 0
  mem := []
  link := { waiting := [], ready := [], credits := 32, lastSent := none }
  port := { pass := [], writes := [], reads := [], passFlight := [], readFlight := [], work := [], heldReads := [],
            nextEntry := 0 }
  maps := .replicate 64 emptyMaps
  pool := { first := 0, size := 0, free := [], low := 0, high := 0, armed := true }
  shots := .replicate 64 freeShot
  table := { profiles := .replicate 4 none, active := 0, seqCounter := 1, lastOpened := 63, cursor := none,
             admissible := false }
  taps := { contexts := .replicate 2 none, fifo := [] }
  view := { followed := none, lastGridLine := 0, sequence := 0, skipped := 0 }
  focus := { setup := none, bankA := idleBank, bankB := idleBank, zones := .replicate 63 noDataZone, primary := none,
             mode := .off, follow := .idle, candidates := 0 }
  lens := { state := .absent, info := none, report := none, timeouts := 0, exchange := none, previous := .none,
            drive := none, messages := [], statusPending := false, stopPending := false, identPending := false,
            pollPending := false, identRetry := .stopped, poll := .stopped }
  engine := { activity := .idle, suspend := false, stop := none, run := freshRun, replayLine := .none,
              tones := .replicate 2 (.replicate 257 0), queue := [] }
  verify := { contexts := .replicate 4 none, nextPass := 0 }
  tether := { rules := .replicate 16 disabledRule, queue := [], head := none }
  order := { post := 0, taken := 0, phase := .idle }
  notice := { writeIndex := 0, consumedIndex := 0, number := 0, overflow := 0, unconsumed := [],
              outstanding := ⟨.clear, .clear, .clear, .clear, .clear, .clear⟩, batch := 1, age := 0, mode := .level,
              pulseLength := 1, standing := false, line := false, pulse := .stopped }
  plainFaults := ⟨0, 0, 0, 0, 0, 0⟩
  pending := pending

/-- The part right after power-on reset (R177). The levels of the pins are the outside's: both strap choices 0 and
lens-present inactive are a DESIGN CHOICE (log 1). -/
def State.reset : State :=
  State.powerOn 0 0 false []

end Sys2Proof.Machine
end

