-- ==== Sys2Proof/Machine/Bytes.lean ====
section
/-! DEFINITION. Little-endian fields, flags and lines of bytes (00_scope.md, Conventions; R179, R180). -/

namespace Sys2Proof.Machine

/-- The `n` bytes of a field, least significant first. -/
def leBytes : Nat → Nat → List Byte
  | 0, _ => []
  | n + 1, v => BitVec.ofNat 8 v :: leBytes n (v / 256)

/-- The value of a run of bytes, least significant first. -/
def leValue : List Byte → Nat
  | [] => 0
  | b :: bs => b.toNat + 256 * leValue bs

/-- The field of `n` bytes at offset `at_`; bytes beyond the end count as 0. -/
def field (bs : List Byte) (at_ n : Nat) : Nat :=
  leValue ((bs.drop at_).take n)

/-- A field of two bytes in two's complement (R179). -/
def signedField (bs : List Byte) (at_ : Nat) : Int :=
  let v := field bs at_ 2
  if v < 32768 then (v : Int) else (v : Int) - 65536

/-- The two bytes of a signed number (R179). -/
def signedBytes (i : Int) : List Byte :=
  leBytes 2 (i % 65536).toNat

/-- A flag as written: one byte, 1 for set and 0 for clear (chapter 11, opening paragraph). -/
def flagByte (f : Bool) : Byte :=
  if f then 1 else 0

/-- A flag as read: 1 is set, 0 is clear, and any other byte is left open (log 4). -/
def flagOf (b : Byte) : Bool :=
  if b = 0 then false else if b = 1 then true else Config.oddFlag b

/-- The flag at an offset. -/
def flagAt (bs : List Byte) (at_ : Nat) : Bool :=
  flagOf (bs.getD at_ 0)

/-- A presence flag and the value's bytes, 0 when the value is absent (R180). -/
def optionBytes (n : Nat) (o : Option Nat) : List Byte :=
  match o with
  | none => 0 :: leBytes n 0
  | some v => 1 :: leBytes n v

/-- A run of bytes made up with zeros, or cut, to `n` bytes (R180: bytes without a field hold 0). -/
def padTo (n : Nat) (bs : List Byte) : List Byte :=
  bs.take n ++ List.replicate (n - bs.length) 0

/-- A full byte mask. -/
def fullMask : BitVec 64 := BitVec.allOnes 64

/-- The byte mask that sets entries `from_ .. to_ − 1`. -/
def rangeMask (from_ to_ : Nat) : BitVec 64 :=
  BitVec.ofNat 64 ((2 ^ (to_ - from_) - 1) * 2 ^ from_)

/-- A line of zeros. -/
def zeroLine : List Byte := List.replicate 64 0

/-- A line of all-ones data (R8). -/
def onesLine : List Byte := List.replicate 64 0xFF

/-- Division of counts rounded up (00_scope.md, Conventions: ceil). -/
def ceilDiv (a b : Nat) : Nat := (a + b - 1) / b

end Sys2Proof.Machine
end

