-- ==== Sys2Proof/Machine/Crc.lean ====
section
/-! DEFINITION. The frame checksum of R139. -/

namespace Sys2Proof.Machine

/-- The initial remainder, all ones. -/
def crcInit : BitVec 32 := 0xFFFFFFFF

/-- One step of the remainder: shift right, combined with the generator when the lowest bit was 1. -/
def crcStep (r : BitVec 32) : BitVec 32 :=
  if r.getLsbD 0 then (r >>> 1) ^^^ 0xEDB88320 else r >>> 1

/-- One byte: combined into the lowest 8 bits, then eight steps. -/
def crcByte (r : BitVec 32) (b : Byte) : BitVec 32 :=
  crcStep (crcStep (crcStep (crcStep (crcStep (crcStep (crcStep (crcStep (r ^^^ b.setWidth 32))))))))

/-- A run of bytes in ascending address order. -/
def crcBytes (r : BitVec 32) (bs : List Byte) : BitVec 32 :=
  bs.foldl crcByte r

/-- The completed value: the remainder complemented. -/
def crcFinish (r : BitVec 32) : BitVec 32 := ~~~r

end Sys2Proof.Machine
end

