-- ==== Sys2Proof/Machine/Operands.lean ====
section
/-! DEFINITION. The operands of the part's work: what a request's tag and address mean (R1, R47, R51), the geometry that
follows from a profile (R5, R14, R60, R77), and the decoding of order records and staging images (R167, R168, 11.2, 11.3). -/

namespace Sys2Proof.Machine

/-! ### Requests -/

/-- R47: tags 5, 6 and 7 give the class OTHER. -/
def sourceClass (tag : BitVec 3) : SourceClass :=
  match tag.toNat with
  | 0 => .processor
  | 1 => .capture
  | 2 => .card
  | 3 => .tether
  | 4 => .display
  | _ => .other

/-- The line address of a request: the six lowest bits taken as 0 (R47). -/
def lineAddr (r : Request) : Nat :=
  r.addr.toNat / 64 * 64

/-- The space of a line address, with window and offset where there are any (R1, R51). -/
inductive Space where
  | unassigned
  | preview (w : Fin 64) (o : Nat)
  | shot (w : Fin 64) (o : Nat)
  | plain
  deriving DecidableEq, Repr

/-- A number taken as a window number. -/
def windowOf (n : Nat) : Fin 64 := ⟨n % 64, Nat.mod_lt _ (by decide)⟩

/-- R51: the first row whose condition holds decides; R1 gives window and offset. -/
def classify (a : Nat) : Space :=
  if Config.unassignedSpace ≤ a then .unassigned
  else if Config.previewSpace ≤ a then
    .preview (windowOf ((a - Config.previewSpace) / 2 ^ 26)) ((a - Config.previewSpace) % 2 ^ 26)
  else if Config.shotSpace ≤ a then
    .shot (windowOf ((a - Config.shotSpace) / 2 ^ 27)) ((a - Config.shotSpace) % 2 ^ 27)
  else .plain

/-- Installed DRAM in GiB (MEM-SIZE, 11.1). -/
def installedGiB (memSize : BitVec 2) : Nat := 4 * (memSize.toNat + 1)

/-- Installed DRAM in bytes. -/
def installedBytes (memSize : BitVec 2) : Nat := installedGiB memSize * 2 ^ 30

/-- Control area base (CA-SEL, R163). -/
def controlBase (caSel : BitVec 2) : Nat :=
  match caSel.toNat with
  | 0 => 0x000100000
  | 1 => 0x040000000
  | 2 => 0x100000000
  | _ => 0x3FFF00000

/-! ### Geometry -/

/-- Raw length of a frame (00_scope.md, Conventions). -/
def Profile.rawLength (p : Profile) : Nat := p.width * p.height * 2

/-- Columns of the preview, Wo (R5). -/
def Profile.previewWidth (p : Profile) : Nat := p.width / (2 * p.devSet.scale)

/-- Rows of the preview, Ho (R5). -/
def Profile.previewHeight (p : Profile) : Nat := p.height / (2 * p.devSet.scale)

/-- R5: the preview length, 0 when development is not requested. The scale of a shot does not change after open (R115). -/
def Profile.previewLength (p : Profile) : Nat :=
  if p.developed then p.previewWidth * p.previewHeight * 4 else 0

/-- R14: raw granules. -/
def Profile.rawGranules (p : Profile) : Nat := ceilDiv p.rawLength Config.granule

/-- R14: preview granules. -/
def Profile.previewGranules (p : Profile) : Nat := ceilDiv p.previewLength Config.granule

/-- R14: the need. -/
def Profile.need (p : Profile) : Nat := p.rawGranules + p.previewGranules

/-- R60: lines per row. -/
def linesPerRow (width : Nat) : Nat := width / 32

/-- R60: the row of a line. -/
def lineRow (width l : Nat) : Nat := l / linesPerRow width

/-- R60: the first column of a line. -/
def lineColumn (width l : Nat) : Nat := 32 * (l % linesPerRow width)

/-- Lines of a frame (R60). -/
def Profile.lines (p : Profile) : Nat := linesPerRow p.width * p.height

/-- The profile copy's content, when there is one. -/
def Shot.profile (x : Shot) : Option Profile := x.copy.map ProfileCopy.profile

/-- The preview length of a shot (R5); 0 for a FREE record. -/
def Shot.previewLength (x : Shot) : Nat := (x.profile.map Profile.previewLength).getD 0

/-- Whether the shot's profile copy requests development. -/
def Shot.developed (x : Shot) : Bool := (x.profile.map Profile.developed).getD false

/-! ### Site tables and zone grids (R76, R77) -/

/-- R76: the ranges of a site table. -/
def SiteTable.valid (t : SiteTable) : Bool :=
  decide (4 ≤ t.rowPeriod ∧ t.rowPeriod ≤ 64 ∧ t.firstRow < t.rowPeriod ∧ 4 ≤ t.columnPeriod ∧ t.columnPeriod ≤ 32 ∧
    t.columnPeriod % 2 = 0 ∧ t.phaseL < t.columnPeriod ∧ t.phaseR < t.columnPeriod ∧ t.phaseL ≠ t.phaseR)

/-- R76: PD rows. -/
def SiteTable.pdRow (t : SiteTable) (r : Nat) : Bool :=
  decide (t.firstRow ≤ r ∧ (r - t.firstRow) % t.rowPeriod = 0)

/-- R76: left-shielded sites of a PD row. -/
def SiteTable.left (t : SiteTable) (c : Nat) : Bool := c % t.columnPeriod == t.phaseL

/-- R76: right-shielded sites of a PD row. -/
def SiteTable.right (t : SiteTable) (c : Nat) : Bool := c % t.columnPeriod == t.phaseR

/-- R76: a sample is a phase-detect site. -/
def SiteTable.site (t : SiteTable) (r c : Nat) : Bool := t.pdRow r && (t.left c || t.right c)

/-- The last PD row at or below row `hi`, when there is one. -/
def SiteTable.lastPdRow (t : SiteTable) (hi : Nat) : Option Nat :=
  if hi < t.firstRow then none else some (t.firstRow + (hi - t.firstRow) / t.rowPeriod * t.rowPeriod)

/-- Whether rows `lo .. hi` hold a PD row. -/
def SiteTable.rangeHoldsPdRow (t : SiteTable) (lo hi : Nat) : Bool :=
  match t.lastPdRow hi with
  | none => false
  | some r => decide (lo ≤ r)

/-- Zones of a grid. -/
def ZoneGrid.zones (g : ZoneGrid) : Nat := g.columns * g.rows

/-- R77: first row of zone z. -/
def ZoneGrid.rowStart (g : ZoneGrid) (z : Nat) : Nat := g.y0 + z / g.columns * g.zoneHeight

/-- R77: first column of zone z. -/
def ZoneGrid.columnStart (g : ZoneGrid) (z : Nat) : Nat := g.x0 + z % g.columns * g.zoneWidth

/-- R77: a row lies in the row range of zone z. -/
def ZoneGrid.holdsRow (g : ZoneGrid) (z r : Nat) : Bool :=
  decide (g.rowStart z ≤ r ∧ r < g.rowStart z + g.zoneHeight)

/-- R77: a column lies in the column range of zone z. -/
def ZoneGrid.holdsColumn (g : ZoneGrid) (z c : Nat) : Bool :=
  decide (g.columnStart z ≤ c ∧ c < g.columnStart z + g.zoneWidth)

/-- R77: the bin of a column of zone z. -/
def ZoneGrid.bin (g : ZoneGrid) (z c : Nat) : Nat := (c - g.columnStart z) / (g.zoneWidth / 32)

/-- R77: a grid is valid against a frame under a site table. -/
def ZoneGrid.valid (g : ZoneGrid) (t : SiteTable) (w h : Nat) : Bool :=
  decide (1 ≤ g.columns ∧ g.columns ≤ 9 ∧ 1 ≤ g.rows ∧ g.rows ≤ 7 ∧
    g.zoneWidth % (32 * t.columnPeriod) = 0 ∧ 1 ≤ g.zoneHeight ∧
    g.x0 + g.columns * g.zoneWidth ≤ w ∧ g.y0 + g.rows * g.zoneHeight ≤ h) &&
  (List.range g.rows).all fun j =>
    t.rangeHoldsPdRow (g.y0 + j * g.zoneHeight) (g.y0 + (j + 1) * g.zoneHeight - 1)

/-- R72: the highest-numbered line that holds a PD row inside the grid. -/
def lastGridLineOf (f : FocusSetup) : Nat :=
  match f.site.lastPdRow (f.grid.y0 + f.grid.rows * f.grid.zoneHeight - 1) with
  | none => 0
  | some r => r * linesPerRow f.width + (f.grid.x0 + f.grid.columns * f.grid.zoneWidth - 1) / 32

/-- R71, R72: line l of a view holds a PD row inside the zone grid. -/
def gridLine (f : FocusSetup) (l : Nat) : Bool :=
  let r := lineRow f.width l
  f.site.pdRow r && decide (f.grid.y0 ≤ r ∧ r < f.grid.y0 + f.grid.rows * f.grid.zoneHeight)

/-- R96: line l lies in the still-check range of zone z under a profile copy: a PD row of the zone's row range, from the line
of its first column to the line of its last. R96 says that a range is never empty, but a zone of width 0 has no column: with a start
column that is a multiple of 32 above 0 no line is in its range and the check is never made (DEDUCED, log 12). -/
def stillLine (p : Profile) (z l : Nat) : Bool :=
  let r := lineRow p.width l
  let i := l % linesPerRow p.width
  p.site.pdRow r && p.grid.holdsRow z r &&
    decide (p.grid.columnStart z / 32 ≤ i ∧ i ≤ (p.grid.columnStart z + p.grid.zoneWidth - 1) / 32)

/-- R66: the last line of the still-check range of zone z. -/
def lastStillLine (p : Profile) (z : Nat) : Option Nat :=
  (p.site.lastPdRow (p.grid.rowStart z + p.grid.zoneHeight - 1)).map fun r =>
    r * linesPerRow p.width + (p.grid.columnStart z + p.grid.zoneWidth - 1) / 32

/-! ### Samples (00_scope.md, Conventions) -/

/-- The value of the sample whose container begins at byte offset `at_`. -/
def sampleAt (bs : List Byte) (at_ : Nat) : Nat := field bs at_ 2 % 16384

/-- The quad position of the sample at row r and column c (mosaic table of the Introduction). -/
def quadPos (m : Mosaic) (r c : Nat) : QuadPos :=
  match m, r % 2, c % 2 with
  | .rFirst, 0, 0 => .red
  | .rFirst, 0, _ => .green1
  | .rFirst, _, 0 => .green2
  | .rFirst, _, _ => .blue
  | .gr, 0, 0 => .green1
  | .gr, 0, _ => .red
  | .gr, _, 0 => .blue
  | .gr, _, _ => .green2
  | .gb, 0, 0 => .green1
  | .gb, 0, _ => .blue
  | .gb, _, 0 => .red
  | .gb, _, _ => .green2
  | .bFirst, 0, 0 => .blue
  | .bFirst, 0, _ => .green1
  | .bFirst, _, 0 => .green2
  | .bFirst, _, _ => .red

/-- The black level of a quad position. -/
def BlackLevels.at (b : BlackLevels) : QuadPos → Nat
  | .red => b.red
  | .green1 => b.green1
  | .green2 => b.green2
  | .blue => b.blue

/-! ### Order records (R167, 11.1, 11.2) -/

/-- The orders of the order table. -/
inductive OrderKind where
  | setPool | setProfile | selectProfile | seal | discard | protect | unprotect | rate | setFocus | focusStart
  | lensMessage | loadTone | redevelop | cardDone | cardRetry | setSelection | tetherDone | sendNow | setNotice
  deriving DecidableEq, Repr

/-- R167, 11.1: order codes; none for a code that names no order. -/
def orderKind (code : Nat) : Option OrderKind :=
  match code with
  | 0x01 => some .setPool
  | 0x02 => some .setProfile
  | 0x03 => some .selectProfile
  | 0x04 => some .seal
  | 0x05 => some .discard
  | 0x06 => some .protect
  | 0x07 => some .unprotect
  | 0x08 => some .rate
  | 0x09 => some .setFocus
  | 0x0A => some .focusStart
  | 0x0B => some .lensMessage
  | 0x0C => some .loadTone
  | 0x0D => some .redevelop
  | 0x0E => some .cardDone
  | 0x0F => some .cardRetry
  | 0x10 => some .setSelection
  | 0x11 => some .tetherDone
  | 0x12 => some .sendNow
  | 0x13 => some .setNotice
  | _ => none

/-- The order table of R169: orders that name a shot. -/
def OrderKind.namesShot : OrderKind → Bool
  | .seal | .discard | .protect | .unprotect | .rate | .redevelop | .cardDone | .cardRetry | .tetherDone | .sendNow => true
  | _ => false

/-- R168, 11.3: the image length of orders that carry one. -/
def OrderKind.imageLength : OrderKind → Option Nat
  | .setProfile => some 256
  | .setFocus => some 192
  | .loadTone => some 320
  | .setSelection => some 128
  | _ => none

/-- 11.2: the fields of a 64-byte order record; bytes without a field are disregarded (R180). -/
def decodeOrder (bs : List Byte) : OrderRecord where
  code := field bs 0 1
  notify := flagAt bs 1
  tag := field bs 2 2
  window := field bs 5 1
  staging := field bs 6 2
  seq := field bs 8 4
  params := bs.drop 12

/-- R168: the staging offset is a multiple of 64 and the image lies inside the staging area. -/
def stagingFits (o : OrderRecord) (len : Nat) : Bool :=
  decide (o.staging % 64 = 0 ∧ o.staging + len ≤ 0x10000)

/-! ### Staging images (11.3) -/

/-- Mosaic codes (11.1). -/
def mosaicOf (n : Nat) : Option Mosaic :=
  match n with
  | 0 => some .rFirst
  | 1 => some .gr
  | 2 => some .gb
  | 3 => some .bFirst
  | _ => none

/-- Four black levels of 2 bytes each. -/
def blackAt (bs : List Byte) (at_ : Nat) : BlackLevels :=
  ⟨field bs at_ 2, field bs (at_ + 2) 2, field bs (at_ + 4) 2, field bs (at_ + 6) 2⟩

/-- R26, R78: black levels lie in 0..4095. -/
def BlackLevels.valid (b : BlackLevels) : Bool :=
  decide (b.red ≤ 4095 ∧ b.green1 ≤ 4095 ∧ b.green2 ≤ 4095 ∧ b.blue ≤ 4095)

/-- A site table of 5 bytes. -/
def siteAt (bs : List Byte) (at_ : Nat) : SiteTable :=
  ⟨field bs at_ 1, field bs (at_ + 1) 1, field bs (at_ + 2) 1, field bs (at_ + 3) 1, field bs (at_ + 4) 1⟩

/-- A zone grid of 10 bytes. -/
def gridAt (bs : List Byte) (at_ : Nat) : ZoneGrid :=
  ⟨field bs at_ 2, field bs (at_ + 2) 2, field bs (at_ + 4) 2, field bs (at_ + 6) 2, field bs (at_ + 8) 1,
    field bs (at_ + 9) 1⟩

/-- Nine signed matrix values of 2 bytes, row by row. -/
def matrixAt (bs : List Byte) (at_ : Nat) : Rgb (Rgb Int) :=
  ⟨⟨signedField bs at_, signedField bs (at_ + 2), signedField bs (at_ + 4)⟩,
   ⟨signedField bs (at_ + 6), signedField bs (at_ + 8), signedField bs (at_ + 10)⟩,
   ⟨signedField bs (at_ + 12), signedField bs (at_ + 14), signedField bs (at_ + 16)⟩⟩

/-- Three gains of 2 bytes. -/
def gainsAt (bs : List Byte) (at_ : Nat) : Rgb Nat :=
  ⟨field bs at_ 2, field bs (at_ + 2) 2, field bs (at_ + 4) 2⟩

/-- The geometry ranges of R26 and R78. -/
def geometryValid (w h : Nat) : Bool :=
  decide (w % 64 = 0 ∧ 512 ≤ w ∧ w ≤ 8256 ∧ h % 8 = 0 ∧ 256 ≤ h ∧ h ≤ 5504)

/-- R115: a scale of 1, 2 or 4 and a tone table of 0 or 1. -/
def DevSet.valid (d : DevSet) : Bool :=
  decide ((d.scale = 1 ∨ d.scale = 2 ∨ d.scale = 4) ∧ d.tone ≤ 1)

/-- R26: the ranges of a profile. -/
def Profile.valid (p : Profile) : Bool :=
  geometryValid p.width p.height && p.black.valid &&
  decide (p.white ≤ 16383 ∧ p.black.red < p.white ∧ p.black.green1 < p.white ∧ p.black.green2 < p.white ∧
    p.black.blue < p.white ∧ p.timeout ≤ 1000 ∧ p.rating ≤ 5) &&
  p.site.valid && p.grid.valid p.site p.width p.height && p.devSet.valid

/-- The profile of a profile image; none when a content lies out of range (R27). -/
def decodeProfile (bs : List Byte) : Option Profile :=
  match mosaicOf (field bs 4 1) with
  | none => none
  | some m =>
    let p : Profile :=
      { width := field bs 0 2, height := field bs 2 2, mosaic := m, black := blackAt bs 5, white := field bs 13 2,
        timeout := field bs 15 2, storyKey := field bs 17 2, rating := field bs 19 1, site := siteAt bs 32,
        grid := gridAt bs 40, kz := field bs 52 2, developed := flagAt bs 64,
        devSet := { scale := field bs 65 1, gains := gainsAt bs 66, matrix := matrixAt bs 72, tone := field bs 90 1 },
        cardRequired := flagAt bs 96, tetherEvaluated := flagAt bs 97 }
    if p.valid then some p else none

/-- Change mode codes (11.3). -/
def changeModeOf (n : Nat) : Option ChangeMode :=
  match n with
  | 0 => some .off
  | 1 => some .enterIn
  | 2 => some .leaveIn
  | 3 => some .anyChange
  | _ => none

/-- R78: the ranges of a focus setup, its grid valid under R77. Only the declared bases are held to their alignment
(11.3: an image holds its buffer bases whether or not the count declares them). -/
def FocusSetup.valid (f : FocusSetup) : Bool :=
  geometryValid f.width f.height && f.black.valid && f.site.valid && f.grid.valid f.site f.width f.height &&
  decide (f.bufferCount ≤ 4 ∧ 1 ≤ f.search ∧ f.search ≤ 12 ∧ f.tol ≤ 3072 ∧ f.hys ≤ 3072 ∧ f.stick ≤ 6144) &&
  (f.bases.toList.take f.bufferCount).all fun b => b % 64 == 0

/-- The setup of a focus setup image; none when a content lies out of range (R79). -/
def decodeFocus (bs : List Byte) : Option FocusSetup :=
  match mosaicOf (field bs 44 1) with
  | none => none
  | some m =>
    if (List.range 63).all (fun z => (changeModeOf (field bs (128 + z) 1)).isSome) then
      let f : FocusSetup :=
        { bufferCount := field bs 0 1, bases := Vector.ofFn fun i => field bs (8 + 8 * i.val) 8, width := field bs 40 2,
          height := field bs 42 2, mosaic := m, black := blackAt bs 45, site := siteAt bs 56, grid := gridAt bs 64,
          kz := field bs 80 2, search := field bs 82 1, cmin := field bs 83 2, cthr := field bs 85 1, tol := field bs 86 2,
          hys := field bs 88 2, stick := field bs 90 2, deadband := field bs 92 2,
          modes := Vector.ofFn fun z => (changeModeOf (field bs (128 + z.val) 1)).getD .off }
      if f.valid then some f else none
    else none

/-- The 257 entries of a tone table image (R116, 11.3). -/
def decodeTone (bs : List Byte) : Vector Nat 257 := Vector.ofFn fun i => field bs i.val 1

/-- Send-what codes (11.1) as a selection rule carries them: none for a code R150 does not give, `some none` for SKIP. -/
def ruleSendOf (n : Nat) : Option (Option SendWhat) :=
  match n with
  | 1 => some (some .preview)
  | 2 => some (some .raw)
  | 3 => some (some .previewThenRaw)
  | 4 => some none
  | _ => none

/-- Focus requirement codes (11.3). -/
def focusNeedOf (n : Nat) : Option FocusNeed :=
  match n with
  | 0 => some .any
  | 1 => some .inOnly
  | 2 => some .notMissed
  | _ => none

/-- Rule n of a selection table image (11.3); none when R151 refuses it. -/
def decodeRule (bs : List Byte) (n : Nat) : Option SelectionRule :=
  match ruleSendOf (field bs (8 * n + 6) 1), focusNeedOf (field bs (8 * n + 5) 1) with
  | some send, some need =>
    if field bs (8 * n + 4) 1 ≤ 5 then
      some { enabled := flagAt bs (8 * n), story := if flagAt bs (8 * n + 1) then none else some (field bs (8 * n + 2) 2),
             minRating := field bs (8 * n + 4) 1, focus := need, send := send }
    else none
  | _, _ => none

/-- The 16 rules of a selection table image (R151). -/
def decodeRules (bs : List Byte) : Option (Vector SelectionRule 16) :=
  if (List.range 16).all (fun n => (decodeRule bs n).isSome) then
    some (Vector.ofFn fun n => (decodeRule bs n.val).getD disabledRule)
  else none

end Sys2Proof.Machine
end

