-- ==== Sys2Proof/Machine/Develop.lean ====
section
/-! DEFINITION. The development pipeline on whole numbers (R117 to R126): from the raw samples of an output row's input rows
to its pixels, its bytes, its lines and its counts. -/

namespace Sys2Proof.Machine

/-- One output pixel (R125). -/
structure Pixel where
  value : Rgb Nat
  clipped : Rgb Bool
  filled : Bool
  deriving DecidableEq, Repr

/-- Raw samples by absolute row and column. -/
abbrev RawSamples := Nat → Nat → Nat

/-- R118: the value of the sample at row r and column c after PD fill. -/
def filledValue (p : Profile) (raw : RawSamples) (r c : Nat) : Nat :=
  if p.site.site r c then
    let leftUsable := decide (2 ≤ c) && !p.site.site r (c - 2)
    let rightUsable := decide (c + 2 < p.width) && !p.site.site r (c + 2)
    if leftUsable && rightUsable then (raw r (c - 2) + raw r (c + 2)) / 2
    else if leftUsable then raw r (c - 2)
    else if rightUsable then raw r (c + 2)
    else raw r c
  else raw r c

/-- The cell of a quad, as row and column within it, that holds a quad position (mosaic table of the Introduction). -/
def quadCell (m : Mosaic) : QuadPos → Nat × Nat
  | .red => match m with
    | .rFirst => (0, 0)
    | .gr => (0, 1)
    | .gb => (1, 0)
    | .bFirst => (1, 1)
  | .green1 => match m with
    | .rFirst => (0, 1)
    | .gr => (0, 0)
    | .gb => (0, 0)
    | .bFirst => (0, 1)
  | .green2 => match m with
    | .rFirst => (1, 0)
    | .gr => (1, 1)
    | .gb => (1, 1)
    | .bFirst => (1, 0)
  | .blue => match m with
    | .rFirst => (1, 1)
    | .gr => (1, 0)
    | .gb => (0, 1)
    | .bFirst => (0, 0)

/-- The filled value at a quad position of the quad whose top left lies at row r and column c. -/
def quadSample (p : Profile) (raw : RawSamples) (r c : Nat) (q : QuadPos) : Nat :=
  filledValue p raw (r + (quadCell p.mosaic q).1) (c + (quadCell p.mosaic q).2)

/-- R120: the sample at a quad position less its black level, not below 0. -/
def quadLevel (p : Profile) (raw : RawSamples) (r c : Nat) (q : QuadPos) : Nat :=
  quadSample p raw r c q - p.black.at q

/-- R120: the three channel values of a quad. -/
def quadValue (p : Profile) (raw : RawSamples) (r c : Nat) : Rgb Nat :=
  ⟨quadLevel p raw r c .red, (quadLevel p raw r c .green1 + quadLevel p raw r c .green2) / 2, quadLevel p raw r c .blue⟩

/-- R117: the top-left row and column of each of the s × s quads of output pixel (x, y). -/
def pixelQuads (s x y : Nat) : List (Nat × Nat) :=
  (List.range s).flatMap fun v => (List.range s).map fun u => (2 * s * y + 2 * v, 2 * s * x + 2 * u)

/-- R121: a binned channel value, the sum over the quads divided by s². -/
def binned (s : Nat) (xs : List Nat) : Nat := xs.sum / (s * s)

/-- R122: a value under a white-balance gain. -/
def balanced (g x : Nat) : Nat := min ((x * g + 2048) / 4096) 65535

/-- R123: one output channel of the colour matrix, floored and clamped to 0..65535. -/
def matrixChannel (row : Rgb Int) (x : Rgb Nat) : Nat :=
  min (((row.r * x.r + row.g * x.g + row.b * x.b + 2048) / 4096 : Int).toNat) 65535

/-- Entry i of a tone table. -/
def toneEntry (t : Vector Nat 257) (i : Nat) : Nat := t[i]?.getD 0

/-- R124: a matrix result through a tone table; the floor is toward minus infinity. -/
def toned (t : Vector Nat 257) (x : Nat) : Nat :=
  ((toneEntry t (x / 256) : Int) +
    (((toneEntry t (x / 256 + 1) : Int) - toneEntry t (x / 256)) * (x % 256 : Nat) + 128) / 256).toNat

/-- R119: a channel of a block is clipped when any of its samples is at or above the white level after PD fill. -/
def channelClipped (p : Profile) (raw : RawSamples) (quads : List (Nat × Nat)) (qs : List QuadPos) : Bool :=
  quads.any fun rc => qs.any fun q => decide (p.white ≤ quadSample p raw rc.1 rc.2 q)

/-- R118: the filled flag, set when any sample of the block is a site. -/
def blockFilled (p : Profile) (quads : List (Nat × Nat)) : Bool :=
  quads.any fun rc => p.site.site rc.1 rc.2 || p.site.site rc.1 (rc.2 + 1) || p.site.site (rc.1 + 1) rc.2 ||
    p.site.site (rc.1 + 1) (rc.2 + 1)

/-- R117 to R124: output pixel (x, y) under a profile copy, a development set and a tone table. -/
def outputPixel (p : Profile) (d : DevSet) (t : Vector Nat 257) (raw : RawSamples) (x y : Nat) : Pixel :=
  let quads := pixelQuads d.scale x y
  let vs := quads.map fun rc => quadValue p raw rc.1 rc.2
  let w : Rgb Nat :=
    ⟨balanced d.gains.r (binned d.scale (vs.map Rgb.r)), balanced d.gains.g (binned d.scale (vs.map Rgb.g)),
     balanced d.gains.b (binned d.scale (vs.map Rgb.b))⟩
  { value := ⟨toned t (matrixChannel d.matrix.r w), toned t (matrixChannel d.matrix.g w), toned t (matrixChannel d.matrix.b w)⟩
    clipped := ⟨channelClipped p raw quads [.red], channelClipped p raw quads [.green1, .green2],
      channelClipped p raw quads [.blue]⟩
    filled := blockFilled p quads }

/-- The samples of output row y's input rows, from the bytes of those rows in frame order (R117). -/
def rowSamples (p : Profile) (d : DevSet) (y : Nat) (bytes : List Byte) : RawSamples := fun r c =>
  sampleAt bytes (((r - 2 * d.scale * y) * p.width + c) * 2)

/-- Output row y, left to right (R117). -/
def outputRow (p : Profile) (d : DevSet) (t : Vector Nat 257) (y : Nat) (bytes : List Byte) : List Pixel :=
  (List.range (p.width / (2 * d.scale))).map fun x => outputPixel p d t (rowSamples p d y bytes) x y

/-- R125, 11.4: the flags byte. -/
def Pixel.flags (px : Pixel) : Nat :=
  (if px.clipped.r then 1 else 0) + (if px.clipped.g then 2 else 0) + (if px.clipped.b then 4 else 0) +
  (if px.filled then 8 else 0)

/-- R125: the four bytes of a pixel. -/
def Pixel.bytes (px : Pixel) : List Byte :=
  [BitVec.ofNat 8 px.value.r, BitVec.ofNat 8 px.value.g, BitVec.ofNat 8 px.value.b, BitVec.ofNat 8 px.flags]

/-- R125: the lines of a run of row bytes that begins at preview offset `start`: the offset of each line, its data and the
mask of the row's bytes in it. For the final row the mask of the last line goes on to the line's end, with zeros. -/
def rowWrites (start : Nat) (bytes : List Byte) (final : Bool) : List (Nat × List Byte × BitVec 64) :=
  let stop := start + bytes.length
  let last := (stop - 1) / 64
  ((List.range (last + 1)).drop (start / 64)).map fun n =>
    let lo := max start (64 * n)
    let hi := if final && decide (n = last) then 64 * n + 64 else min stop (64 * n + 64)
    (64 * n, (List.range 64).map (fun i => if start ≤ 64 * n + i then bytes.getD (64 * n + i - start) 0 else 0),
      rangeMask (lo - 64 * n) (hi - 64 * n))

/-- R126: one count raised in a histogram. -/
def countBin (h : Vector Nat 256) (v : Nat) : Vector Nat 256 := h.setIfInBounds v ((h[v]?.getD 0) + 1)

/-- R126: a pixel is counted in the three histograms. -/
def countPixel (h : Rgb (Vector Nat 256)) (px : Pixel) : Rgb (Vector Nat 256) :=
  ⟨countBin h.r px.value.r, countBin h.g px.value.g, countBin h.b px.value.b⟩

/-- R126: a pixel is counted in the clip counts. -/
def countClip (c : Rgb Nat) (px : Pixel) : Rgb Nat :=
  ⟨c.r + (if px.clipped.r then 1 else 0), c.g + (if px.clipped.g then 1 else 0), c.b + (if px.clipped.b then 1 else 0)⟩

end Sys2Proof.Machine
end

