-- ==== Sys2Proof/Machine/Measure.lean ====
section
/-! DEFINITION. The focus arithmetic: accumulation of a line's sites (R81), the measurement (R83 to R87) and the zone states
(R88, R97). -/

namespace Sys2Proof.Machine

/-! ### Accumulation -/

/-- R81 steps 1 and 2: what the sample at offset `at_` contributes, black level subtracted, not below 0. -/
def siteValue (m : Mosaic) (black : BlackLevels) (r c : Nat) (bs : List Byte) (at_ : Nat) : Nat :=
  sampleAt bs at_ - black.at (quadPos m r c)

/-- R81 step 3: one sum raised. -/
def raise (v : Vector Nat 32) (k n : Nat) : Vector Nat 32 := v.setIfInBounds k ((v[k]?.getD 0) + n)

/-- R81: the sample at column c of row r is added to the profiles of zone z of a grid, when it is a site of that zone. -/
def addSample (t : SiteTable) (g : ZoneGrid) (m : Mosaic) (black : BlackLevels) (z r c : Nat) (bs : List Byte) (at_ : Nat)
    (p : Profiles) : Profiles :=
  if t.pdRow r && g.holdsRow z r && g.holdsColumn z c then
    if t.left c then { p with left := raise p.left (g.bin z c) (siteValue m black r c bs at_) }
    else if t.right c then { p with right := raise p.right (g.bin z c) (siteValue m black r c bs at_) }
    else p
  else p

/-- R81: the 32 samples of line l of a frame of the given width are added to the profiles of zone z. -/
def addLine (t : SiteTable) (g : ZoneGrid) (m : Mosaic) (black : BlackLevels) (width z l : Nat) (bs : List Byte)
    (p : Profiles) : Profiles :=
  (List.range 32).foldl
    (fun p i => addSample t g m black z (lineRow width l) (lineColumn width l + i) bs (2 * i) p) p

/-- R81: line l of a view is added to every zone of a bank. -/
def addViewLine (f : FocusSetup) (l : Nat) (bs : List Byte) (sums : Vector Profiles 63) : Vector Profiles 63 :=
  Vector.ofFn fun z =>
    if z.val < f.grid.zones then addLine f.site f.grid f.mosaic f.black f.width z.val l bs (sums.get z) else sums.get z

/-- R82: a line of the still-check range is added to a still accumulation under the profile copy. -/
def addStillLine (p : Profile) (l : Nat) (bs : List Byte) (a : StillAcc) : StillAcc :=
  { a with sums := addLine p.site p.grid p.mosaic p.black p.width a.zone.val l bs a.sums }

/-! ### The measurement -/

/-- The result of measuring one zone. -/
structure Measured where
  lowContrast : Bool
  q : Int
  conf : Nat
  ratio : Nat
  steps : Int
  beyond : Bool
  deriving DecidableEq, Repr

/-- Bin k of a profile. -/
def bin (v : Vector Nat 32) (k : Nat) : Nat := v[k]?.getD 0

/-- The distance of two counts. -/
def absDiff (a b : Nat) : Nat := (a - b) + (b - a)

/-- R83: the sum of a profile. -/
def profileSum (v : Vector Nat 32) : Nat := v.toList.sum

/-- R83 step 2: bin k of the normalised right profile. -/
def normalised (p : Profiles) (k : Nat) : Nat :=
  min (bin p.right k * profileSum p.left / profileSum p.right) Config.max32

/-- R83 step 3: the contrast C. -/
def contrast (v : Vector Nat 32) : Nat :=
  ((List.range 31).map fun k => absDiff (bin v (k + 1)) (bin v k)).sum

/-- R83 step 3: the ratio r. -/
def contrastRatio (v : Vector Nat 32) : Nat := min (contrast v * 1024 / profileSum v) 65535

/-- R84: the bins k for which k and k + d both lie in 0..31. -/
def overlap (d : Int) : List Nat :=
  (List.range 32).filter fun k => decide (0 ≤ (k : Int) + d ∧ (k : Int) + d ≤ 31)

/-- R84: the score S(d). -/
def score (p : Profiles) (d : Int) : Nat :=
  ((overlap d).map fun k => absDiff (bin p.left k) (normalised p ((k : Int) + d).toNat)).sum * 32 / (32 - d.natAbs)

/-- R84: the shifts in the order in which a tie is decided: smallest |d| first, the negative one before the positive. -/
def shifts (search : Nat) : List Int :=
  0 :: (List.range search).flatMap fun i => [-((i : Int) + 1), (i : Int) + 1]

/-- R84: the best shift d0, the first in that order with the least score. -/
def bestShift (p : Profiles) (search : Nat) : Int :=
  (shifts search).foldl (fun best d => if score p d < score p best then d else best) 0

/-- R87: the lens steps, q × kz / 65536 rounded half away from zero. -/
def lensSteps (q : Int) (kz : Nat) : Int :=
  (q * kz).sign * ((((q * kz).natAbs + 32768) / 65536 : Nat) : Int)

/-- R86: den, the depth of the minimum against the worse neighbour. -/
def fitDepth (a b c : Nat) : Nat := max a b - c

/-- R86: the offset of the minimum between bins, truncated toward zero. -/
def fitOffset (a b c : Nat) : Int :=
  if fitDepth a b c = 0 then 0 else Int.tdiv (((a : Int) - b) * 128) (fitDepth a b c)

/-- R86: the confidence. -/
def fitConfidence (a b c : Nat) : Nat :=
  if fitDepth a b c = 0 then 0 else fitDepth a b c * 255 / max a b

/-- R83 to R87: the measurement of one pair of profiles. -/
def measure (p : Profiles) (search cmin kz : Nat) : Measured :=
  if profileSum p.left = 0 ∨ profileSum p.right = 0 then
    { lowContrast := true, q := 0, conf := 0, ratio := 0, steps := 0, beyond := false }
  else if contrastRatio p.left < cmin then
    { lowContrast := true, q := 0, conf := 0, ratio := contrastRatio p.left, steps := 0, beyond := false }
  else
    let d := bestShift p search
    if d.natAbs = search then
      { lowContrast := false, q := d * 256, conf := 0, ratio := contrastRatio p.left, steps := lensSteps (d * 256) kz,
        beyond := true }
    else
      let a := score p (d - 1)
      let c := score p d
      let b := score p (d + 1)
      let q := d * 256 + fitOffset a b c
      { lowContrast := false, q := q, conf := fitConfidence a b c, ratio := contrastRatio p.left, steps := lensSteps q kz,
        beyond := false }

/-! ### States -/

/-- R88: the state of a measured zone of a view whose state before was `old`. -/
def zoneStateOf (f : FocusSetup) (old : ZoneState) (m : Measured) : ZoneState :=
  if m.lowContrast then .lowContrast
  else if m.beyond then (if 0 < m.q then .near else .far)
  else if m.conf < f.cthr then .unsure
  else if old = .inFocus && decide (m.q.natAbs ≤ f.tol + f.hys) then .inFocus
  else if m.q.natAbs ≤ f.tol then .inFocus
  else if 0 < m.q then .near
  else .far

/-- R97: the state of a still focus check, as R88 without the hysteresis. -/
def checkStateOf (f : FocusSetup) (m : Measured) : ZoneState := zoneStateOf f .noData m

end Sys2Proof.Machine
end

