-- ==== Sys2Proof/Machine/Layout.lean ====
section
/-! DEFINITION. What the part writes into the control area, byte by byte: the codes of 11.1, the lines of the cursor page,
the zone records, the shot mirror (11.2) and the notice records (R180). Sizes that R179 leaves to be read are in log 11. -/

namespace Sys2Proof.Machine

/-! ### Codes (11.1) -/

/-- Source class codes. -/
def SourceClass.code : SourceClass → Nat
  | .processor => 0 | .capture => 1 | .card => 2 | .tether => 3 | .display => 4 | .other => 5

/-- Fault kind codes. -/
def FaultKind.code : FaultKind → Nat
  | .notOpen => 0 | .access => 1 | .length => 2 | .previewNotReady => 3 | .poolFence => 4 | .noMemory => 5 | .unassigned => 6

/-- Zone and check state codes. -/
def ZoneState.code : ZoneState → Nat
  | .noData => 0 | .lowContrast => 1 | .unsure => 2 | .near => 3 | .far => 4 | .inFocus => 5 | .none => 6

/-- Mosaic codes. -/
def Mosaic.code : Mosaic → Nat
  | .rFirst => 0 | .gr => 1 | .gb => 2 | .bFirst => 3

/-- Shot state codes. -/
def ShotState.code : ShotState → Nat
  | .free => 0 | .capturing => 1 | .sealed => 2 | .discarding => 3

/-- Tap status codes (11.2, line 0x0C0). -/
def TapStatus.code : TapStatus → Nat
  | .inOrder => 0 | .disordered => 1 | .incomplete => 2

/-- Development status codes. -/
def DevStatus.code : DevStatus → Nat
  | .none => 0 | .inline => 1 | .queued => 2 | .replaying => 3 | .done => 4 | .failed => 5

/-- Development reason codes; 0 for no reason. -/
def reasonCode : Option DevReason → Nat
  | none => 0
  | some .overflow => 1
  | some .disorder => 2
  | some .incomplete => 3
  | some .queueFull => 4
  | some .engineBusy => 5

/-- Card status codes. -/
def CardStatus.code : CardStatus → Nat
  | .notRequired => 0 | .pending => 1 | .reading => 2 | .done => 3 | .failed => 4

/-- Verify status codes. -/
def VerifyStatus.code : VerifyStatus → Nat
  | .none => 0 | .running => 1 | .matched => 2 | .mismatch => 3 | .unverified => 4

/-- Tether status codes. -/
def TetherStatus.code : TetherStatus → Nat
  | .notRequired => 0 | .undecided => 1 | .notSelected => 2 | .queued => 3 | .sending => 4 | .sent => 5 | .abandoned => 6

/-- Send-what codes; 0 for absent. -/
def sendCode : Option SendWhat → Nat
  | none => 0
  | some .preview => 1
  | some .raw => 2
  | some .previewThenRaw => 3

/-- CRC origin and focus check origin codes. -/
def Origin.code : Origin → Nat
  | .inline => 0 | .replay => 1

/-- Order status codes. -/
def OrderStatus.code : OrderStatus → Nat
  | .done => 0x01 | .accepted => 0x02 | .unknown => 0x03 | .badParam => 0x04 | .state => 0x05 | .busy => 0x06
  | .tooEarly => 0x07 | .full => 0x08 | .verifyFailed => 0x09 | .noLens => 0x0A

/-- Lens state codes (11.2, cursor line 6). -/
def LensState.code : LensState → Nat
  | .absent => 0 | .identifying => 1 | .ready => 2 | .unresponsive => 3

/-- Engine activity codes (11.2, cursor line 5). -/
def Activity.code : Activity → Nat
  | .idle => 0 | .inline _ => 1 | .replay => 2

/-- Notice kind codes. -/
def NoticeKind.code : NoticeKind → Nat
  | .started => 0x00 | .shotOpened => 0x01 | .shotSealed => 0x02 | .shotReleased => 0x03 | .captureRefused => 0x04
  | .accessFault => 0x05 | .plainFault => 0x06 | .tapDisorder => 0x07 | .developed => 0x08 | .developFailed => 0x09
  | .focusChange => 0x0A | .focusCheck => 0x0B | .lensFault => 0x0C | .lensReply => 0x0D | .verified => 0x0E
  | .verifyMismatch => 0x0F | .tetherReady => 0x10 | .poolLow => 0x11 | .noticeOverflow => 0x12 | .order => 0x13

/-- R170: the urgent kinds. -/
def NoticeKind.urgent : NoticeKind → Bool
  | .captureRefused | .developFailed | .lensFault | .verifyMismatch | .poolLow | .noticeOverflow => true
  | _ => false

/-- Request codes of the lens line (R104). -/
def LensRequest.code : LensRequest → Byte
  | .ident => 0x01
  | .status => 0x02
  | .drive _ _ => 0x03
  | .stop => 0x04
  | .message m => m.kind

/-! ### The shot record's lines (11.2) -/

/-- A window number as a byte. -/
def windowByte (w : Fin 64) : Byte := BitVec.ofNat 8 w.val

/-- A code or a small number in one byte. -/
def byte1 (n : Nat) : List Byte := [BitVec.ofNat 8 n]

/-- The development line of a profile image (offset 64, 11.3): requested flag, scale, gains, matrix, tone table. -/
def devSetBytes (developed : Bool) (d : DevSet) : List Byte :=
  [flagByte developed] ++ byte1 d.scale ++ leBytes 2 d.gains.r ++ leBytes 2 d.gains.g ++ leBytes 2 d.gains.b ++
  signedBytes d.matrix.r.r ++ signedBytes d.matrix.r.g ++ signedBytes d.matrix.r.b ++
  signedBytes d.matrix.g.r ++ signedBytes d.matrix.g.g ++ signedBytes d.matrix.g.b ++
  signedBytes d.matrix.b.r ++ signedBytes d.matrix.b.g ++ signedBytes d.matrix.b.b ++ byte1 d.tone

/-- The 256-byte image of a profile (11.3). -/
def profileImage (p : Profile) : List Byte :=
  padTo 32 (leBytes 2 p.width ++ leBytes 2 p.height ++ byte1 p.mosaic.code ++ leBytes 2 p.black.red ++
    leBytes 2 p.black.green1 ++ leBytes 2 p.black.green2 ++ leBytes 2 p.black.blue ++ leBytes 2 p.white ++
    leBytes 2 p.timeout ++ leBytes 2 p.storyKey ++ byte1 p.rating) ++
  padTo 8 (byte1 p.site.rowPeriod ++ byte1 p.site.firstRow ++ byte1 p.site.columnPeriod ++ byte1 p.site.phaseL ++
    byte1 p.site.phaseR) ++
  padTo 12 (leBytes 2 p.grid.x0 ++ leBytes 2 p.grid.y0 ++ leBytes 2 p.grid.zoneWidth ++ leBytes 2 p.grid.zoneHeight ++
    byte1 p.grid.columns ++ byte1 p.grid.rows) ++
  padTo 12 (leBytes 2 p.kz) ++ padTo 32 (devSetBytes p.developed p.devSet) ++
  padTo 160 [flagByte p.cardRequired, flagByte p.tetherEvaluated]

/-- The 256 counts of a histogram, 4 bytes each. -/
def histBytes (h : Vector Nat 256) : List Byte := h.toList.flatMap (leBytes 4)

/-- Sixteen lines cut out of a run of bytes: line i of it. -/
def lineOf (bs : List Byte) (i : Nat) : List Byte := (bs.drop (64 * i)).take 64

/-- The fields of line l of the mirror space of window w, packed as R180 gives. Lines without fields hold zeros. -/
def mirrorItems (w : Fin 64) (x : Shot) (l : Nat) : List Byte :=
  match l with
  | 0 => [windowByte w] ++ byte1 x.state.code ++ leBytes 4 x.seq ++
      byte1 ((x.copy.map fun c => c.slot.val).getD 0) ++ leBytes 2 x.width ++ leBytes 2 x.height ++ leBytes 4 x.rawLength ++
      leBytes 4 x.previewLength
  | 1 => leBytes 2 x.rawMapped ++ leBytes 2 x.previewMapped ++ leBytes 2 x.reservation ++ [flagByte x.protect] ++
      byte1 x.rating ++ [flagByte x.urgent] ++ leBytes 2 x.storyKey
  | 2 => (match x.snapshot with
        | none => List.replicate 9 0
        | some n => [1] ++ byte1 n.zone.val ++ byte1 n.state.code ++ signedBytes n.q ++ byte1 n.conf ++
            optionBytes 2 n.exposure) ++
      (match x.focusCheck with
        | none => List.replicate 5 0
        | some c => [1] ++ byte1 c.state.code ++ signedBytes c.q ++ byte1 c.conf)
  | 3 => byte1 x.tapStatus.code ++
      (match x.crc with
        | none => List.replicate 6 0
        | some (v, o) => [1] ++ leBytes 4 v.toNat ++ byte1 o.code) ++
      byte1 x.dev.code ++ byte1 (reasonCode x.reason) ++ [flagByte x.checkOnly]
  | 4 => (match x.devSet with
        | none => []
        | some d => devSetBytes x.developed d)
  | 5 => byte1 x.card.code ++ leBytes 4 x.cardBytes ++ byte1 x.verify.code ++ byte1 x.tether.code ++
      byte1 (sendCode x.sendWhat) ++ leBytes 4 x.tetherRaw ++ leBytes 4 x.tetherPreview
  | 6 => leBytes 4 x.clip.r ++ leBytes 4 x.clip.g ++ leBytes 4 x.clip.b ++ leBytes 2 x.faults.processor ++
      leBytes 2 x.faults.capture ++ leBytes 2 x.faults.card ++ leBytes 2 x.faults.tether ++ leBytes 2 x.faults.display ++
      leBytes 2 x.faults.other ++
      (match x.firstFault with
        | none => List.replicate 7 0
        | some f => [1] ++ byte1 f.cls.code ++ byte1 f.kind.code ++ leBytes 4 f.offset)
  | l =>
    if l < 8 then []
    else if l < 12 then lineOf ((x.profile.map profileImage).getD []) (l - 8)
    else if l < 16 then []
    else if l < 32 then lineOf (histBytes x.hist.r) (l - 16)
    else if l < 48 then lineOf (histBytes x.hist.g) (l - 32)
    else lineOf (histBytes x.hist.b) (l - 48)

/-- The lines of a record that hold fields (11.2): 0x000 to 0x180 and the profile copy at 0x200. -/
def recordLines : List (Fin 64) := [0, 1, 2, 3, 4, 5, 6, 8, 9, 10, 11]

/-- The lines of a whole record, the first KiB of a window's space (chapter 2.8). Those without a field are written as zeros (R180). -/
def wholeRecord : List (Fin 64) := (List.finRange 64).take 16

/-- The lines of a window's histogram space (chapter 2.8). -/
def histLines : List (Fin 64) := (List.finRange 64).drop 16

/-! ### Zone records (11.2) -/

/-- The fields of a zone record. -/
def zoneItems (z : ZoneRecord) : List Byte :=
  byte1 z.state.code ++ signedBytes z.q ++ byte1 z.conf ++ leBytes 2 z.ratio ++ signedBytes z.steps ++
  [flagByte z.beyond] ++ optionBytes 2 z.exposure ++ leBytes 4 z.view ++ [flagByte z.primary]

/-! ### Pool counts (R13) -/

/-- R13: the free count. -/
def freeCount (s : State) : Nat := s.pool.free.length

/-- R13: the total reservation, the sum of the reservations held by shots. -/
def totalReservation (s : State) : Nat := (s.shots.toList.map Shot.reservation).sum

/-- R13: available, which is never negative. -/
def available (s : State) : Nat := freeCount s - totalReservation s

/-! ### Cursor page (R165, 11.2) -/

/-- The items of cursor page line n, packed as R180 gives. -/
def cursorItems (s : State) (n : Nat) : List Byte :=
  match n with
  | 0 => [1] ++ leBytes 8 (controlBase s.caSel) ++ byte1 (installedGiB s.memSize)
  | 1 => (match s.table.cursor with
        | none => [0xFF]
        | some w => [windowByte w]) ++ [flagByte s.table.admissible] ++ leBytes 4 s.table.seqCounter
  | 2 => leBytes 2 s.pool.size ++ leBytes 2 (freeCount s) ++ leBytes 2 (totalReservation s) ++ leBytes 2 (available s)
  | 3 => byte1 s.order.taken ++ byte1 s.notice.writeIndex ++ leBytes 4 s.notice.overflow
  | 4 => (match s.tether.head with
        | none => []
        | some h => [1, windowByte h.window] ++ leBytes 4 h.seq ++ [flagByte h.raw] ++ leBytes 4 h.previewLength ++
            leBytes 4 h.rawLength)
  | 5 => byte1 s.engine.activity.code ++ leBytes 2 s.engine.queue.length
  | 6 => byte1 s.lens.state.code ++
      (match s.lens.info with
        | none => List.replicate 7 0
        | some i => [1] ++ leBytes 2 i.identity ++ leBytes 2 i.minimum ++ leBytes 2 i.maximum) ++
      (match s.lens.report with
        | none => List.replicate 4 0
        | some r => [1] ++ leBytes 2 r.position ++ [flagByte r.moving])
  | 7 => leBytes 4 s.plainFaults.processor ++ leBytes 4 s.plainFaults.capture ++ leBytes 4 s.plainFaults.card ++
      leBytes 4 s.plainFaults.tether ++ leBytes 4 s.plainFaults.display ++ leBytes 4 s.plainFaults.other
  | _ => leBytes 4 s.view.sequence ++ leBytes 4 s.view.skipped

/-! ### Lines and records where they lie (R163) -/

/-- Address, bytes and mask of one of the part's own lines, with the values of the moment (R45, R164). -/
def ownLineWrite (s : State) : OwnLine → Nat × List Byte × BitVec 64
  | .cursor n => (controlBase s.caSel + Config.cursorPage + 64 * n.val, padTo 64 (cursorItems s n.val), fullMask)
  | .zone z => (controlBase s.caSel + Config.zoneRecords + 64 * z.val, padTo 64 (zoneItems (s.focus.zones.get z)), fullMask)
  | .mirror w l =>
    (controlBase s.caSel + Config.shotMirror + 4096 * w.val + 64 * l.val, padTo 64 (mirrorItems w (s.shots.get w) l.val),
      fullMask)
  | .preview a d m => (a, d, m)

/-- The 32 bytes of a notice record that carries number n (11.2). -/
def noticeBytes (n : Notice) (number : Nat) : List Byte :=
  padTo 32 (leBytes 2 number ++ byte1 n.kind.code ++ [n.window] ++ leBytes 4 n.seq ++ leBytes 2 n.subject ++ n.details)

/-- Address, bytes and mask of the half-line of notice ring slot k (R171). -/
def noticeWrite (s : State) (k : Nat) (bytes : List Byte) : Nat × List Byte × BitVec 64 :=
  if k % 2 = 0 then
    (controlBase s.caSel + Config.noticeRing + 32 * k, padTo 64 bytes, rangeMask 0 32)
  else
    (controlBase s.caSel + Config.noticeRing + 32 * (k - 1), List.replicate 32 0 ++ padTo 32 bytes, rangeMask 32 64)

/-- Address of the order record in ring slot k (R167). -/
def orderAddr (s : State) (k : Nat) : Nat := controlBase s.caSel + Config.orderRing + 64 * k

/-- R169 step 1: the status byte of the record in ring slot k, with a mask that sets that byte alone. -/
def statusWrite (s : State) (k : Nat) (st : OrderStatus) : Nat × List Byte × BitVec 64 :=
  (orderAddr s k, padTo 64 (List.replicate 4 0 ++ byte1 st.code), rangeMask 4 5)

end Sys2Proof.Machine
end

