-- ==== Sys2Proof/Machine/Flags.lean ====
section
/-! DEFINITION. The conditions that the part computes over its state and publishes or acts upon: the attention condition and
line (R174, R175), the capture cursor and admissible flag (R33), the release conditions (R43), the inputs of a shot (R152), the
ready flag (R155), the table-in-use test (R116) and the counts the rules speak of. -/

namespace Sys2Proof.Machine

/-! ### Counts -/

/-- R24, R29: how many shots are CAPTURING. -/
def capturingCount (s : State) : Nat := s.shots.toList.countP fun x => x.state = .capturing

/-- R170: how many notices are unconsumed. -/
def unconsumedCount (s : State) : Nat := (s.notice.writeIndex + 256 - s.notice.consumedIndex) % 256

/-- R166: how many orders are pending. -/
def pendingOrders (s : State) : Nat := (s.order.post + 64 - s.order.taken) % 64

/-- R158: how many tether entries are SENDING. -/
def sendingCount (s : State) : Nat :=
  s.tether.queue.countP fun e => (s.shots.get e.window).tether = .sending

/-- R48: reads that have been taken and not yet answered, wherever they are. -/
def unansweredReads (s : State) : Nat :=
  (s.port.pass.countP fun e =>
    match e.kind with
    | .read r => r.respond
    | .write _ _ => false) +
  (s.port.passFlight.countP fun r => r.respond) + s.link.ready.length

/-- R48: occupied slots of the Link Port. -/
def slotsUsed (s : State) : Nat := s.link.waiting.length + unansweredReads s

/-! ### Time -/

/-- The reference clock stands at a time or later: an event of a timer is a step that comes when the timer's time has come
(log 5). -/
def State.advanceTo (s : State) (time : Nat) : State := { s with now := max s.now time }

/-! ### Attention -/

/-- R174: whether the attention condition stands. -/
def attentionCondition (s : State) : Bool :=
  decide (s.notice.batch ≤ unconsumedCount s) ||
  (match s.notice.unconsumed with
    | [] => false
    | m :: _ => decide (0 < s.notice.age ∧ m.time + s.notice.age ≤ s.now)) ||
  s.notice.unconsumed.any NoticeMark.urgent

/-- R174, R175: the condition is evaluated and the line follows it in the mode in force. -/
def evaluateAttention (s : State) : State :=
  let c := attentionCondition s
  match s.notice.mode with
  | .level => { s with notice := { s.notice with standing := c, line := c } }
  | .pulse =>
    if c && !s.notice.standing && s.notice.pulse = .stopped then
      { s with notice := { s.notice with standing := c, line := true, pulse := .running (s.now + s.notice.pulseLength) } }
    else { s with notice := { s.notice with standing := c } }

/-! ### Capture cursor -/

/-- R33: the window the capture cursor names. -/
def captureCursorOf (s : State) : Option (Fin 64) :=
  if s.pool.size = 0 then none
  else ((List.range 64).map fun i => windowOf (s.table.lastOpened.val + 1 + i)).find? fun w =>
    (s.shots.get w).state = .free

/-- The active profile, when its slot is valid (R26). -/
def activeProfile (s : State) : Option Profile := s.table.profiles.get s.table.active

/-- R33: the admissible flag for a cursor. -/
def admissibleOf (s : State) (cursor : Option (Fin 64)) : Bool :=
  match cursor, activeProfile s with
  | some _, some p => decide (p.need ≤ available s)
  | _, _ => false

/-! ### Conditions on a shot -/

/-- R43: the four conditions of the release check. -/
def Shot.releasable (x : Shot) : Bool :=
  (decide (x.card = .notRequired) || decide (x.card = .done)) &&
  (decide (x.tether = .notRequired) || decide (x.tether = .notSelected) || decide (x.tether = .sent) ||
    decide (x.tether = .abandoned)) &&
  (decide (x.dev = .none) || decide (x.dev = .done) || decide (x.dev = .failed)) && !x.protect

/-- R152: the inputs of a shot are present. -/
def Shot.inputsPresent (x : Shot) : Bool :=
  x.focusCheck.isSome && !(decide (x.dev = .queued) || decide (x.dev = .replaying))

/-- R155: the first part of a send-what is PREVIEW. -/
def SendWhat.previewFirst : SendWhat → Bool
  | .preview | .previewThenRaw => true
  | .raw => false

/-- R155: the ready flag of an entry. -/
def readyFlag (x : Shot) (send : SendWhat) : Bool := !send.previewFirst || decide (x.dev = .done)

/-- R116: table t is named by a set. -/
def namesTone (d : Option DevSet) (t : Nat) : Bool :=
  match d with
  | none => false
  | some d => d.tone == t

/-- R116: table t is in use. -/
def toneInUse (s : State) (t : Nat) : Bool :=
  s.shots.toList.any (fun x => decide (x.dev = .inline) && namesTone x.devSet t) ||
  s.engine.queue.any (fun j => j.begun && namesTone j.set t)

/-- R30: the inline side is taken while any shot's development status is INLINE. -/
def inlineShot (s : State) : Option (Fin 64) :=
  (List.finRange 64).find? fun w => (s.shots.get w).dev = .inline

end Sys2Proof.Machine
end

