-- ==== Sys2Proof/Machine/Memory.lean ====
section
/-! DEFINITION. DRAM: reads and writes of bytes and lines over the canonical list (log 2). -/

namespace Sys2Proof.Machine

/-- What an address that nothing has written reads as. R177: "The DRAM content is undefined afterwards." A byte of zeros is a
DESIGN CHOICE (log 2, unsafe). -/
def unlistedByte : Byte := 0

/-- The byte at an address. -/
def Memory.read : Memory → Nat → Byte
  | [], _ => unlistedByte
  | (k, v) :: m, a => if a = k then v else Memory.read m a

/-- The memory with one byte written; a byte equal to `unlistedByte` is not listed. -/
def Memory.write : Memory → Nat → Byte → Memory
  | [], a, v => if v = unlistedByte then [] else [(a, v)]
  | (k, x) :: m, a, v =>
    if a < k then (if v = unlistedByte then (k, x) :: m else (a, v) :: (k, x) :: m)
    else if a = k then (if v = unlistedByte then m else (a, v) :: m)
    else (k, x) :: Memory.write m a v

/-- Addresses rise strictly and no listed byte equals `unlistedByte`. -/
def Memory.wf : Memory → Bool
  | [] => true
  | [(_, v)] => v != unlistedByte
  | (a, v) :: (b, w) :: m => v != unlistedByte && decide (a < b) && Memory.wf ((b, w) :: m)

/-- The 64 bytes of the line at an address. -/
def Memory.readLine (m : Memory) (a : Nat) : List Byte :=
  (List.range 64).map fun i => m.read (a + i)

/-- The memory with the bytes that the mask selects written, byte i of the data at address a + i (R47, R52). -/
def Memory.writeLine (m : Memory) (a : Nat) (data : List Byte) (mask : BitVec 64) : Memory :=
  (List.range 64).foldl (fun m i => if mask.getLsbD i then m.write (a + i) (data.getD i 0) else m) m

end Sys2Proof.Machine
end

