-- ==== Sys2Proof/Machine/Ops.lean ====
section
/-! DEFINITION. The operations every block shares: reading and changing a record, entering the memory path (R55, R56), the
part's own work in order (R56, R171, R173, R169), handing over notices, publishing lines, the pool's counts (R13, R19), and
the two kinds of fault record (R9, R11). -/

namespace Sys2Proof.Machine

/-! ### Access by class, window and bank -/

/-- The value of a class. -/
def PerClass.get {α : Type} (p : PerClass α) : SourceClass → α
  | .processor => p.processor | .capture => p.capture | .card => p.card | .tether => p.tether | .display => p.display
  | .other => p.other

/-- The values with that of one class replaced. -/
def PerClass.set {α : Type} (p : PerClass α) (c : SourceClass) (v : α) : PerClass α :=
  match c with
  | .processor => { p with processor := v }
  | .capture => { p with capture := v }
  | .card => { p with card := v }
  | .tether => { p with tether := v }
  | .display => { p with display := v }
  | .other => { p with other := v }

/-- Every value changed alike. -/
def PerClass.map {α β : Type} (f : α → β) (p : PerClass α) : PerClass β :=
  ⟨f p.processor, f p.capture, f p.card, f p.tether, f p.display, f p.other⟩

/-- The record of window w. -/
def State.shot (s : State) (w : Fin 64) : Shot := s.shots.get w

/-- The state with the record of window w replaced. -/
def State.setShot (s : State) (w : Fin 64) (x : Shot) : State := { s with shots := s.shots.set w.val x }

/-- The state with the record of window w changed. -/
def State.modShot (s : State) (w : Fin 64) (f : Shot → Shot) : State := s.setShot w (f (s.shot w))

/-- The maps of window w. -/
def State.mapsOf (s : State) (w : Fin 64) : WindowMaps := s.maps.get w

/-- R4: the granule that raw entry g of window w holds. -/
def State.rawEntry (s : State) (w : Fin 64) (g : Nat) : Option Nat := ((s.mapsOf w).raw[g]?).join

/-- R5: the granule that preview entry g of window w holds. -/
def State.previewEntry (s : State) (w : Fin 64) (g : Nat) : Option Nat := ((s.mapsOf w).preview[g]?).join

/-- A counter of 32 bits that holds at its largest value. -/
def hold32 (n : Nat) : Nat := min n Config.max32

/-! ### The memory path (R55, R56) -/

/-- R56: the inserted-write queue has a place. -/
def writeRoom (s : State) : Bool := decide (s.port.writes.length < Config.writePlaces)

/-- R55, R56: one of the part's own writes enters its queue and the memory path. -/
def enterWrite (s : State) (w : Nat × List Byte × BitVec 64) : State :=
  { s with
    mem := s.mem.writeLine w.1 w.2.1 w.2.2
    port := { s.port with
      writes := s.port.writes ++ [{ addr := w.1, data := w.2.1, mask := w.2.2, entry := s.port.nextEntry, wait := 0 }]
      nextEntry := s.port.nextEntry + 1 } }

/-- R55, R56: one of the part's own reads enters its queue and the memory path; its data is that of every write before it. -/
def enterRead (s : State) (purpose : ReadPurpose) (addr : Nat) : State :=
  { s with
    port := { s.port with
      reads := s.port.reads ++
        [{ purpose := purpose, addr := addr, data := s.mem.readLine addr, entry := s.port.nextEntry, wait := 0 }]
      nextEntry := s.port.nextEntry + 1 } }

/-- R56: a block issues a read; it is held when the queue is full or an earlier read is held. -/
def issueRead (s : State) (purpose : ReadPurpose) (addr : Nat) : State :=
  if s.port.heldReads.isEmpty && decide (s.port.reads.length < Config.readPlaces) then enterRead s purpose addr
  else { s with port := { s.port with heldReads := s.port.heldReads ++ [(purpose, addr)] } }

/-- R50: a write taken by the Link Port enters the pass-through queue and the memory path. -/
def enterPassWrite (s : State) (addr : Nat) (data : List Byte) (mask : BitVec 64) : State :=
  { s with
    mem := s.mem.writeLine addr data mask
    port := { s.port with
      pass := s.port.pass ++ [{ addr := addr, kind := .write data mask, entry := s.port.nextEntry }]
      nextEntry := s.port.nextEntry + 1 } }

/-- R50: a read taken by the Link Port enters the pass-through queue and the memory path. -/
def enterPassRead (s : State) (addr : Nat) (txn : BitVec 5) (accepted : Option (Nat × Nat)) : State :=
  { s with
    port := { s.port with
      pass := s.port.pass ++
        [{ addr := addr, kind := .read { txn := txn, data := s.mem.readLine addr, respond := true, accepted := accepted },
           entry := s.port.nextEntry }]
      nextEntry := s.port.nextEntry + 1 } }

/-! ### The Notice Unit's writing (R170, R171, R173) -/

/-- R171, fewer than 255 unconsumed: the record is inserted at slot write index, its time and urgent mark are recorded, and
for a PLAIN FAULT its slot; the write index and the number rise; the cursor page line follows, and the attention condition is
evaluated after it. -/
def writeNotice (s : State) (n : Notice) : State :=
  let k := s.notice.writeIndex
  let s := enterWrite s (noticeWrite s k (noticeBytes n s.notice.number))
  { s with
    notice := { s.notice with
      writeIndex := (k + 1) % 256
      number := (s.notice.number + 1) % 65536
      unconsumed := s.notice.unconsumed ++ [{ time := s.now, urgent := n.kind.urgent }]
      outstanding :=
        match n.fault with
        | none => s.notice.outstanding
        | some c => s.notice.outstanding.set c (.slot k) }
    port := { s.port with work := .line (.cursor 3) :: .attention :: s.port.work } }

/-- R171, 255 unconsumed: the notice is dropped, the overflow count rises, and a dropped PLAIN FAULT clears its class. -/
def countDrop (s : State) (n : Notice) : State :=
  { s with notice := { s.notice with
      overflow := hold32 (s.notice.overflow + 1)
      outstanding :=
        match n.fault with
        | none => s.notice.outstanding
        | some c => s.notice.outstanding.set c .clear } }

/-- R171: the cursor page line with the overflow count follows a dropped notice. -/
def dropNotice (s : State) (n : Notice) : State :=
  { countDrop s n with port := { s.port with work := .line (.cursor 3) :: s.port.work } }

/-- R173: the NOTICE OVERFLOW notice for the present overflow count. -/
def overflowNotice (s : State) : Notice :=
  { kind := .noticeOverflow, window := 0xFF, seq := 0, subject := 0, details := leBytes 4 s.notice.overflow, fault := none }

/-- R173: NOTICE OVERFLOW is written with the count, which returns to 0. -/
def writeOverflow (s : State) : State :=
  writeNotice { s with notice := { s.notice with overflow := 0 } } (overflowNotice s)

/-- R173: a NOTICE OVERFLOW waits. -/
def reportWaits (s : State) : Bool := s.port.work.contains .overflow

/-! ### The Order Unit's writing (R167, R169) -/

/-- R167: with orders pending and none in progress, the order at the taken index is taken and its record is read. -/
def takeOrder (s : State) : State :=
  if s.order.phase = .idle && decide (0 < pendingOrders s) then
    issueRead { s with order := { s.order with phase := .fetching } } .orderRecord (orderAddr s s.order.taken)
  else s

/-- R169 step 3: the ORDER notice of an order. -/
def orderNotice (o : OrderRecord) (st : OrderStatus) : Notice :=
  let named := ((orderKind o.code).map OrderKind.namesShot).getD false
  { kind := .order, window := if named then BitVec.ofNat 8 o.window else 0xFF, seq := if named then o.seq else 0,
    subject := o.tag, details := byte1 o.code ++ byte1 st.code, fault := none }

/-- R169: the status byte is inserted and the taken index rises; then come the cursor page line, the ORDER notice when the
notify flag is set, and the end of the order. -/
def completeOrder (s : State) (st : OrderStatus) : State :=
  match s.order.phase with
  | .completing o =>
    let s := enterWrite s (statusWrite s s.order.taken st)
    { s with
      order := { s.order with taken := (s.order.taken + 1) % 64 }
      port := { s.port with
        work := .line (.cursor 3) :: (if o.notify then [.notice (orderNotice o st) .waits] else []) ++
          .nextOrder :: s.port.work } }
  | _ => s

/-! ### The part's own work, in order (R56) -/

/-- R171: a notice whose turn has come is written or dropped; none when it must wait for a place. When a NOTICE OVERFLOW waits and
the ring has room for one notice only, the report takes this place of the Notice Unit's, so that it finds room (R173, log 9). -/
def takeNotice (n : Notice) (s : State) : Option State :=
  if Config.noticePlaces ≤ unconsumedCount s then some (dropNotice s n)
  else if !writeRoom s then none
  else if reportWaits s && decide (Config.noticePlaces ≤ unconsumedCount s + 1) then
    some (writeOverflow { s with port := { s.port with work := .notice n .handed :: s.port.work.erase .overflow } })
  else some (writeNotice s n)

/-- One piece of work, with the work behind it in `s`; none when it must wait for a place in the inserted-write queue. -/
def runWork (w : OwnWork) (s : State) : Option State :=
  match w with
  | .line l => if writeRoom s then some (enterWrite s (ownLineWrite s l)) else none
  | .notice n _ => takeNotice n s
  | .overflow => if writeRoom s then some (writeOverflow s) else none
  | .attention => some (evaluateAttention s)
  | .orderStatus st _ => if writeRoom s then some (completeOrder s st) else none
  | .nextOrder => some (takeOrder { s with order := { s.order with phase := .idle } })

/-- Up to `n` pieces of work are done, as far as places allow. -/
def settle : Nat → State → State
  | 0, s => s
  | n + 1, s =>
    match s.port.work with
    | [] => s
    | w :: rest =>
      match runWork w { s with port := { s.port with work := rest } } with
      | none => s
      | some s' => settle n s'

/-! ### Work that waits for other work (R46, R165, R169) -/

/-- R165: cursor page line c publishes an item whose change a notice of this kind reports. R165 names TETHER READY and POOL LOW, and
R169 puts the line with the taken index before ORDER; the rest is read from the rules of the kinds (DEDUCED, log 9). -/
def NoticeKind.reportsCursor (k : NoticeKind) (c : Fin 9) : Bool :=
  match k with
  | .started => true
  | .shotOpened | .shotReleased => c = 1 || c = 2
  | .poolLow => c = 2
  | .order => c = 3
  | .tetherReady => c = 4
  | .developFailed => c = 5
  | .lensFault => c = 6
  | .plainFault => c = 7
  | _ => false

/-- R46: a notice of this kind reports a change of a shot record. -/
def NoticeKind.reportsRecord (k : NoticeKind) : Bool :=
  match k with
  | .shotOpened | .shotSealed | .shotReleased | .accessFault | .tapDisorder | .developed | .developFailed | .focusCheck
  | .verified | .verifyMismatch => true
  | _ => false

/-- R46, R165: line l carries a change that notice n reports, and so is inserted before n is handed over. -/
def Notice.reports (n : Notice) (l : OwnLine) : Bool :=
  match l with
  | .mirror w _ => n.kind.reportsRecord && n.window = windowByte w
  | .zone _ => n.kind = .focusChange
  | .cursor c => n.kind.reportsCursor c
  | .preview _ _ _ => false

/-- Two notices report changes of one shot's record. They keep their order (R37, R46, R137). -/
def Notice.sameRecord (n m : Notice) : Bool := n.kind.reportsRecord && m.kind.reportsRecord && n.window = m.window

/-- A notice that has not been handed over yet, or a status byte that is not due yet. -/
def OwnWork.waits : OwnWork → Bool
  | .notice _ k => k ≠ .handed
  | .orderStatus _ due => !due
  | _ => false

/-- Work w waits for work v before it: a notice for a line that carries its change or for an earlier notice of the same record, an
order's status byte for the order's own notices (R46, R165, R169). -/
def OwnWork.waitsFor (w v : OwnWork) : Bool :=
  match w, v with
  | .notice n _, .line l => n.reports l
  | .notice n _, .notice m k => k ≠ .handed && n.sameRecord m
  | .orderStatus _ _, .notice _ k => k = .owed
  | _, _ => false

/-- The Notice Unit has a notice in hand. -/
def unitBusy (s : State) : Bool :=
  s.port.work.any fun w =>
    match w with
    | .notice _ k => k = .handed
    | .overflow | .attention => true
    | _ => false

/-- R56: a piece of work comes to the inserted-write queue, finds others waiting, and takes its place behind them. A notice that the
Notice Unit drops at once needs no place but for the cursor page line (R171). -/
def comeUp (s : State) (w : OwnWork) : State :=
  match w with
  | .notice n _ =>
    if !unitBusy s && decide (Config.noticePlaces ≤ unconsumedCount s) then
      { countDrop s n with port := { s.port with
        work := if s.port.work.contains (.line (.cursor 3)) then s.port.work else s.port.work ++ [.line (.cursor 3)] } }
    else { s with port := { s.port with work := s.port.work ++ [.notice n .handed] } }
  | .orderStatus st _ => { s with port := { s.port with work := s.port.work ++ [.orderStatus st true] } }
  | w => { s with port := { s.port with work := s.port.work ++ [w] } }

/-- The first piece that has waited and waits for nothing any more, with the work before and behind it. -/
def firstReady (before : List OwnWork) : List OwnWork → Option (List OwnWork × OwnWork × List OwnWork)
  | [] => none
  | w :: ws => if w.waits && !before.any w.waitsFor then some (before, w, ws) else firstReady (before ++ [w]) ws

/-- Up to n pieces that waited for other work come up, each once what it waited for is in (log 9). -/
def bringUp : Nat → State → State
  | 0, s => s
  | n + 1, s =>
    match firstReady [] s.port.work with
    | none => s
    | some (b, w, a) => bringUp n (comeUp { s with port := { s.port with work := b ++ a } } w)

/-- Work that needs no place in the inserted-write queue. -/
def needsNoPlace (s : State) (w : OwnWork) : Bool :=
  match w with
  | .nextOrder | .attention => true
  | .notice _ _ => Config.noticePlaces ≤ unconsumedCount s
  | _ => false

/-- Up to n pieces of the work at the front are done that need no place (R56: what depended on a held write goes on). -/
def settleFree : Nat → State → State
  | 0, s => s
  | n + 1, s =>
    match s.port.work with
    | [] => s
    | w :: _ => if needsNoPlace s w then settleFree n (settle 1 s) else s

/-- What depended on the writes that have entered goes on. -/
def goOn (s : State) : State :=
  let t := bringUp s.port.work.length s
  settleFree t.port.work.length t

/-- A piece of work joins those that wait. One that must wait for another of them has no place yet. -/
def joinWork (s : State) (w : OwnWork) : State :=
  if w.waits && s.port.work.any w.waitsFor then
    { s with port := { s.port with work := s.port.work ++ [w] } }
  else comeUp s w

/-- A piece of work begins: at once when none waits (with the up to five pieces that follow from it), otherwise behind those
that wait. -/
def emit (s : State) (w : OwnWork) : State :=
  if s.port.work.isEmpty then goOn (settle 8 { s with port := { s.port with work := [w] } }) else joinWork s w

/-- A line of the part is written. A line that already waits carries this change too (R45, R165). -/
def emitLine (s : State) (l : OwnLine) : State :=
  if s.port.work.contains (.line l) then s else emit s (.line l)

/-- A block hands a notice to the Notice Unit (R171). -/
def hand (s : State) (n : Notice) : State := emit s (.notice n .waits)

/-- A cursor page line is written back (R165). -/
def publish (s : State) (n : Fin 9) : State := emitLine s (.cursor n)

/-- Lines of the mirror of window w are written back (R45). -/
def mirror (s : State) (w : Fin 64) (ls : List (Fin 64)) : State :=
  ls.foldl (fun s l => emitLine s (.mirror w l)) s

/-- R45: the lines of a record that hold the fields which a change has changed. -/
def changedLines (w : Fin 64) (old new : Shot) : List (Fin 64) :=
  recordLines.filter fun l => mirrorItems w old l.val ≠ mirrorItems w new l.val

/-- R45: the lines of the record of window w that have changed since it was `old` are written back. -/
def mirrorChanged (s : State) (w : Fin 64) (old : Shot) : State := mirror s w (changedLines w old (s.shot w))

/-- A notice about the shot in window w. -/
def shotNotice (s : State) (w : Fin 64) (kind : NoticeKind) (subject : Nat) (details : List Byte) : Notice :=
  { kind := kind, window := windowByte w, seq := (s.shot w).seq, subject := subject, details := details, fault := none }

/-- A notice about no shot. -/
def plainNotice (kind : NoticeKind) (subject : Nat) (details : List Byte) : Notice :=
  { kind := kind, window := 0xFF, seq := 0, subject := subject, details := details, fault := none }

/-- R169: an order's status is decided. -/
def finishOrder (s : State) (o : OrderRecord) (st : OrderStatus) : State :=
  emit { s with order := { s.order with phase := .completing o } } (.orderStatus st false)

/-! ### The capture cursor and the pool's counts (R13, R19, R33) -/

/-- R33: cursor and admissible flag are recomputed. -/
def recomputeCursor (s : State) : State :=
  let c := captureCursorOf s
  { s with table := { s.table with cursor := c, admissible := admissibleOf s c } }

/-- R33: cursor and admissible flag are recomputed, and line 1 is written back when either changed. -/
def refreshCursor (s : State) : State :=
  let t := recomputeCursor s
  if s.table.cursor = t.table.cursor && s.table.admissible == t.table.admissible then s else publish t 1

/-- R19: the POOL LOW notice. -/
def poolLowNotice (s : State) : Notice :=
  plainNotice .poolLow 0 (leBytes 2 (available s) ++ leBytes 2 (freeCount s) ++ leBytes 2 (totalReservation s))

/-- R19: the armed flag is evaluated for a change of available. -/
def evalArmed (s : State) : State :=
  if s.pool.armed && decide (available s < s.pool.low) then
    hand { s with pool := { s.pool with armed := false } } (poolLowNotice s)
  else if !s.pool.armed && decide (s.pool.high ≤ available s) then { s with pool := { s.pool with armed := true } }
  else s

/-- R13, R165: line 2 is written back when one of its items changed. -/
def publishPool (before s : State) : State :=
  if before.pool.size = s.pool.size && freeCount before = freeCount s && totalReservation before = totalReservation s
  then s else publish s 2

/-- R13: after a change of the pool, line 2 is written back when one of its items changed, and the armed flag is evaluated when
available changed (R19). -/
def poolCounted (before s : State) : State :=
  if available before = available s then publishPool before s else evalArmed (publishPool before s)

/-- R13: after a change of the pool, its counts are published and the armed flag evaluated, and the capture cursor is recomputed
when available changed (R33). -/
def poolChanged (before s : State) : State :=
  if available before = available s then poolCounted before s else refreshCursor (poolCounted before s)

/-- R15, R17: the shot takes a reservation of n granules. -/
def takeReservation (s : State) (w : Fin 64) (n : Nat) : State :=
  if n = 0 then s
  else poolChanged s (mirror (s.modShot w fun x => { x with reservation := x.reservation + n }) w [1])

/-- R16: n granules of the shot's reservation are returned. -/
def returnReservation (s : State) (w : Fin 64) (n : Nat) : State :=
  if n = 0 then s
  else poolChanged s (mirror (s.modShot w fun x => { x with reservation := x.reservation - n }) w [1])

/-- R6: the empty raw entry g of window w is filled from the head of the free queue against the shot's reservation; none when the
entry is not empty, the shot holds no reservation or the queue no granule, which R6 rules out (log 20). -/
def allocateRaw (s : State) (w : Fin 64) (g : Nat) : Option State :=
  let maps := s.mapsOf w
  match maps.raw[g]?, s.pool.free, (s.shot w).reservation with
  | some none, n :: rest, r + 1 =>
    let t := { s with
      pool := { s.pool with free := rest }
      maps := s.maps.set w.val { maps with raw := maps.raw.setIfInBounds g (some n) } }
    let t := t.modShot w fun x => { x with reservation := r, rawMapped := x.rawMapped + 1 }
    some (poolChanged s (mirror t w [1]))
  | _, _, _ => none

/-- R6, R7: the empty preview entry g of window w is filled in the same way. -/
def allocatePreview (s : State) (w : Fin 64) (g : Nat) : Option State :=
  let maps := s.mapsOf w
  match maps.preview[g]?, s.pool.free, (s.shot w).reservation with
  | some none, n :: rest, r + 1 =>
    let t := { s with
      pool := { s.pool with free := rest }
      maps := s.maps.set w.val { maps with preview := maps.preview.setIfInBounds g (some n) } }
    let t := t.modShot w fun x => { x with reservation := r, previewMapped := x.previewMapped + 1 }
    some (poolChanged s (mirror t w [1]))
  | _, _, _ => none

/-! ### Fault records (R9, R11) -/

/-- R11: a plain-space fault of a class at a line address. -/
def plainFault (s : State) (c : SourceClass) (kind : FaultKind) (addr : Nat) : State :=
  let n := hold32 (s.plainFaults.get c + 1)
  let changed := decide (n ≠ s.plainFaults.get c)
  let s := { s with plainFaults := s.plainFaults.set c n }
  let s := if changed then publish s 7 else s
  if s.notice.outstanding.get c = .clear then
    hand { s with notice := { s.notice with outstanding := s.notice.outstanding.set c .handed } }
      { plainNotice .plainFault 0 (byte1 c.code ++ byte1 kind.code ++ leBytes 8 addr ++ leBytes 4 n) with fault := some c }
  else s

/-- R9, R45: a fault against the shot in window w at an offset of shot space or preview space. -/
def shotFault (s : State) (w : Fin 64) (c : SourceClass) (kind : FaultKind) (o : Nat) (inPreview : Bool) : State :=
  let old := (s.shot w).faults.get c
  let new := min (old + 1) 65535
  let s := s.modShot w fun x =>
    { x with
      faults := x.faults.set c new
      firstFault :=
        match x.firstFault with
        | none => some { cls := c, kind := kind, offset := o }
        | some f => some f }
  let s := if old = 0 || (new % 256 = 0 && new ≠ old) then mirror s w [6] else s
  if old = 0 then
    hand s (shotNotice s w .accessFault 0
      (byte1 c.code ++ byte1 kind.code ++ leBytes 4 o ++ byte1 (if inPreview then 1 else 0)))
  else s

/-! ### Orders in the owners' hands (R38, R167) -/

/-- The order of a kind that has been handed to its owner, with its image. -/
def dispatchedOrder (s : State) (k : OrderKind) : Option (OrderRecord × List Byte) :=
  match s.order.phase with
  | .dispatched o img => if orderKind o.code = some k then some (o, img) else none
  | _ => none

/-- The notices in `ws` that wait, but for the first k of them, come before the status byte of the order in progress. -/
def oweNotices : Nat → List OwnWork → List OwnWork
  | _, [] => []
  | k, .notice n st :: ws =>
    if st = .handed then .notice n st :: oweNotices k ws
    else if k = 0 then .notice n .owed :: oweNotices 0 ws else .notice n st :: oweNotices (k - 1) ws
  | k, w :: ws => w :: oweNotices k ws

/-- A notice that waits. -/
def OwnWork.isHeldNotice : OwnWork → Bool
  | .notice _ k => k ≠ .handed
  | _ => false

/-- R169: the notices that an order's rule has added to those of `before` come before the order's status byte. -/
def State.owingSince (s before : State) : State :=
  { s with port := { s.port with work := oweNotices (before.port.work.countP OwnWork.isHeldNotice) s.port.work } }

/-- An order's step: its owner's rule makes its changes and decides the status (R167), and R169 follows. When no order of the
kind has been handed over, the step does not come about and nothing changes (log 6). -/
def runOrder (s : State) (k : OrderKind) (f : OrderRecord → List Byte → State → State × OrderStatus) :
    Host.Outcome State Fault Refusal :=
  match dispatchedOrder s k with
  | none => .next s
  | some (o, img) => .next (finishOrder ((f o img s).1.owingSince s) o (f o img s).2)

/-- R38: an order that names a shot is checked before the order's own conditions. -/
def forShot (o : OrderRecord) (s : State) (f : Fin 64 → State → State × OrderStatus) : State × OrderStatus :=
  if h : o.window < 64 then
    if (s.shot ⟨o.window, h⟩).state = .free || (s.shot ⟨o.window, h⟩).seq ≠ o.seq then (s, .state) else f ⟨o.window, h⟩ s
  else (s, .badParam)

end Sys2Proof.Machine
end

