-- ==== Sys2Proof/Machine/Tether.lean ====
section
/-! DEFINITION. The Tether Queue's own operations (chapter 9): the rules and evaluation (R150, R153), the queue (R154), the
ready flags (R155) and the head (R156). The tether orders stand in Machine/TetherOrders.lean. -/

namespace Sys2Proof.Machine

/-! ### The queue -/

/-- R154: an entry joins at the end of its class, URGENT entries standing before NORMAL ones. -/
def insertEntry (q : List TetherEntry) (e : TetherEntry) : List TetherEntry :=
  if e.urgent then q.filter (fun x => x.urgent) ++ [e] ++ q.filter (fun x => !x.urgent) else q ++ [e]

/-- The queue without the entry of window w. -/
def withoutEntry (q : List TetherEntry) (w : Fin 64) : List TetherEntry := q.filter fun e => e.window ≠ w

/-- The entry of window w. -/
def tetherEntry (s : State) (w : Fin 64) : Option TetherEntry := s.tether.queue.find? fun e => e.window = w

/-- The state with the tether queue replaced. -/
def State.setTetherQueue (s : State) (q : List TetherEntry) : State := { s with tether := { s.tether with queue := q } }

/-! ### The head -/

/-- R156: the first entry in queue order whose ready flag is set and whose tether status is QUEUED. -/
def tetherHeadOf (s : State) : Option TetherHead :=
  (s.tether.queue.find? fun e => e.ready && decide ((s.shot e.window).tether = .queued)).map fun e =>
    { window := e.window, seq := e.seq, raw := !e.send.previewFirst,
      previewLength := (s.shot e.window).previewLength, rawLength := (s.shot e.window).rawLength }

/-- R156: the TETHER READY notice of a head. -/
def tetherReadyNotice (h : TetherHead) : Notice :=
  { kind := .tetherReady, window := windowByte h.window, seq := h.seq, subject := 0,
    details := [flagByte h.raw] ++ leBytes 4 h.previewLength ++ leBytes 4 h.rawLength, fault := none }

/-- R156: the head is recomputed; a change is written back, and a change from NONE to an entry is reported. -/
def refreshHead (s : State) : State :=
  let h := tetherHeadOf s
  if s.tether.head = h then s
  else
    let t := publish { s with tether := { s.tether with head := h } } 4
    match s.tether.head, h with
    | none, some h => hand t (tetherReadyNotice h)
    | _, _ => t

/-- R155: the ready flag of the entry of window w is recomputed, and with it the head. -/
def refreshReady (s : State) (w : Fin 64) : State :=
  refreshHead (s.setTetherQueue (s.tether.queue.map fun e =>
    if e.window = w then { e with ready := readyFlag (s.shot w) e.send } else e))

/-! ### Selection -/

/-- R150: the focus requirement is met by a focus check state. -/
def FocusNeed.meets (n : FocusNeed) (z : ZoneState) : Bool :=
  match n with
  | .any => true
  | .inOnly => decide (z = .inFocus)
  | .notMissed => decide (z = .inFocus) || decide (z = .lowContrast) || decide (z = .none)

/-- R150: a rule matches a shot. -/
def SelectionRule.matches (r : SelectionRule) (x : Shot) : Bool :=
  r.enabled && (match r.story with
    | none => true
    | some k => decide (k = x.storyKey)) &&
  decide (r.minRating ≤ x.rating) &&
  (match x.focusCheck with
    | none => decide (r.focus = .any)
    | some c => r.focus.meets c.state)

/-- R150, R153 step 1: what the first matching rule sends; none when no rule matches or the first match is SKIP. -/
def selected (s : State) (x : Shot) : Option SendWhat :=
  (s.tether.rules.toList.find? fun r => r.matches x).bind SelectionRule.send

/-- R153 step 2: a preview part is impossible. -/
def Shot.previewImpossible (x : Shot) : Bool :=
  decide (x.dev = .none) || decide (x.dev = .failed) ||
  ((decide (x.dev = .queued) || decide (x.dev = .replaying)) && x.checkOnly)

/-- R153 step 2: a send-what degraded. -/
def degrade (x : Shot) (send : SendWhat) : SendWhat := if x.previewImpossible then .raw else send

/-- R153 step 3, R162: the shot joins the queue with the given send-what, its counts 0 and status QUEUED. -/
def joinQueue (s : State) (w : Fin 64) (send : SendWhat) (forced : Bool) : State :=
  let s := s.modShot w fun x =>
    { x with tether := .queued, sendWhat := some send, tetherRaw := 0, tetherPreview := 0 }
  let x := s.shot w
  let s := mirror s w [5]
  refreshHead (s.setTetherQueue (insertEntry s.tether.queue
    { window := w, seq := x.seq, send := send, urgent := forced || x.urgent, ready := readyFlag x send, forced := forced }))

/-- R153: the selection table is applied to a shot whose inputs are present. -/
def evaluateShot (s : State) (w : Fin 64) : State :=
  match selected s (s.shot w) with
  | none => mirror (s.modShot w fun x => { x with tether := .notSelected, sendWhat := none }) w [5]
  | some send => joinQueue s w (degrade (s.shot w) send) false

/-- R152: an UNDECIDED shot is evaluated when its inputs are present. -/
def evaluateUndecided (s : State) (w : Fin 64) : State :=
  if (s.shot w).state = .sealed && (s.shot w).tether = .undecided && (s.shot w).inputsPresent then evaluateShot s w else s

end Sys2Proof.Machine
end

