-- ==== Sys2Proof/Machine/Release.lean ====
section
/-! DEFINITION. Release of a shot (R18, R43, R44) and the return of reservation that goes with development (R17). -/

namespace Sys2Proof.Machine

/-- Release causes (R44, 11.1). -/
inductive ReleaseCause where
  | released | discarded
  deriving DecidableEq, Repr

/-- Codes of 11.1. -/
def ReleaseCause.code : ReleaseCause → Nat
  | .released => 0 | .discarded => 1

/-- R18: the granules of a window's raw map and then of its preview map, in ascending order of granule index. -/
def mappedGranules (m : WindowMaps) : List Nat :=
  m.raw.toList.filterMap id ++ m.preview.toList.filterMap id

/-- R18, R44: the shot in window w is released. -/
def releaseShot (s : State) (w : Fin 64) (cause : ReleaseCause) : State :=
  let granules := mappedGranules (s.mapsOf w)
  let notice := shotNotice s w .shotReleased 0 (byte1 cause.code ++ leBytes 2 granules.length)
  let t := { s with
    pool := { s.pool with free := s.pool.free ++ granules }
    maps := s.maps.set w.val emptyMaps }
  let t := mirror (t.setShot w freeShot) w wholeRecord
  hand (refreshCursor (poolChanged s t)) notice

/-- R43: the release check. -/
def releaseCheck (s : State) (w : Fin 64) : State :=
  if (s.shot w).state = .sealed && (s.shot w).releasable then releaseShot s w .released else s

/-- R16, R17: the whole remaining reservation of a shot is returned. -/
def returnAll (s : State) (w : Fin 64) : State := returnReservation s w (s.shot w).reservation

end Sys2Proof.Machine
end

