-- ==== Sys2Proof/Machine/Engine.lean ====
section
/-! DEFINITION. The Development Engine (chapter 7): its choice of work (R127), inline and replay jobs (R129, R132, R133),
abandonment, suspension and stop (R130, R134, R135), the replay queue (R131), the notices (R137), and the recording of a still
focus check (R97, R98), which a replay job also makes. -/

namespace Sys2Proof.Machine

/-! ### Still focus checks -/

/-- R97: a focus check is recorded, written to the mirror and reported; an UNDECIDED shot may now be evaluated (R152). -/
def recordCheck (s : State) (w : Fin 64) (zone : Nat) (check : FocusCheck) (steps : Int) (origin : Origin) : State :=
  let s := mirror (s.modShot w fun x => { x with focusCheck := some check }) w [2]
  let s := hand s (shotNotice s w .focusCheck zone
    (byte1 check.state.code ++ signedBytes check.q ++ byte1 check.conf ++ signedBytes steps ++ byte1 origin.code))
  releaseCheck (evaluateUndecided s w) w

/-- R97, R98: a complete still accumulation is measured under the focus setup in force and the profile copy's still kz. -/
def measureStill (s : State) (w : Fin 64) (p : Profile) (a : StillAcc) (origin : Origin) : State :=
  match s.focus.setup with
  | none => s
  | some f =>
    let m := measure a.sums f.search f.cmin p.kz
    recordCheck s w a.zone.val { state := checkStateOf f m, q := m.q, conf := m.conf } m.steps origin

/-! ### Development status and notices -/

/-- A change of a shot's development status, reason or check-only mark, written to the mirror (R25, R45). -/
def changeDev (s : State) (w : Fin 64) (f : Shot → Shot) : State := mirror (s.modShot w f) w [3]

/-- R136: the status becomes FAILED with a reason; histograms and clip counts are set to 0 and written back. -/
def setFailed (s : State) (w : Fin 64) (r : Option DevReason) : State :=
  mirror (s.modShot w fun x =>
    { x with dev := .failed, reason := r, checkOnly := false, hist := zeroHist, clip := ⟨0, 0, 0⟩ }) w ([3, 6] ++ histLines)

/-- R136: a development fails. -/
def failDev (s : State) (w : Fin 64) (r : DevReason) : State := refreshReady (setFailed s w (some r)) w

/-- Codes of the kind of job not taken (11.1). -/
def jobNotTakenCode : Option JobKind → Nat
  | none => 0
  | some .develop => 1
  | some .check => 2

/-- R137: a DEVELOP FAILED notice. -/
def developFailed (s : State) (w : Fin 64) (r : DevReason) (k : Option JobKind) : State :=
  hand s (shotNotice s w .developFailed 0
    (byte1 (reasonCode (some r)) ++ byte1 (jobNotTakenCode k) ++ leBytes 2 s.engine.queue.length))

/-- R137: DEVELOPED origins, 0 INLINE, 1 REPLAY DEVELOP, 2 REPLAY CHECK (11.1). -/
def developed (s : State) (w : Fin 64) (origin : Nat) : State :=
  let x := s.shot w
  hand s (shotNotice s w .developed 0
    (byte1 origin ++ byte1 x.dev.code ++ byte1 (reasonCode x.reason) ++
      (match x.crc with
        | none => [0, 0]
        | some (_, o) => [1] ++ byte1 o.code)))

/-! ### The replay queue -/

/-- The engine with its fields changed. -/
def State.setEngine (s : State) (e : Engine) : State := { s with engine := e }

/-- R131: the shot in window w has a job in the queue. -/
def hasJob (s : State) (w : Fin 64) : Bool := s.engine.queue.any fun j => j.window = w

/-- R131: an offered job joins the tail when the queue holds fewer than 16 jobs, and is not taken otherwise. Cursor page line 5, with the
occupancy (R127), is inserted here, before mirror line 0x0C0 with the status QUEUED, which no rule orders (DESIGN CHOICE, log 14). -/
def offerJob (s : State) (w : Fin 64) (k : JobKind) : State × Bool :=
  if s.engine.queue.length < Config.replayPlaces then
    (publish (s.setEngine { s.engine with queue := s.engine.queue ++
      [{ window := w, seq := (s.shot w).seq, kind := k, set := (s.shot w).devSet, nextRow := 0, begun := false,
         saved := none }] }) 5, true)
  else (s, false)

/-- R39: the job of window w leaves the queue. -/
def removeJob (s : State) (w : Fin 64) : State :=
  publish (s.setEngine { s.engine with queue := s.engine.queue.filter fun j => j.window ≠ w }) 5

/-- R37 step 4, R63 step 4: a CHECK job is offered to a shot without a CRC and without a job. True when it is not taken. -/
def offerCheck (s : State) (w : Fin 64) : State × Bool :=
  if (s.shot w).crc.isSome || hasJob s w then (s, false)
  else
    match offerJob s w .check with
    | (s, true) => (refreshReady (changeDev s w fun x => { x with dev := .queued, checkOnly := true }) w, false)
    | (s, false) => (s, true)

/-- R63 step 3, R68: INLINE work put off to a DEVELOP job; when the queue is full the status becomes FAILED(QUEUE-FULL). True
when the job is not taken. -/
def putOff (s : State) (w : Fin 64) (r : DevReason) : State × Bool :=
  match offerJob s w .develop with
  | (s, true) => (refreshReady (changeDev s w fun x => { x with dev := .queued, reason := some r }) w, false)
  | (s, false) => (failDev s w .queueFull, true)

/-! ### Preview lines -/

/-- Work that is a preview line. -/
def OwnWork.isPreview : OwnWork → Bool
  | .line (.preview _ _ _) => true
  | _ => false

/-- R56: preview lines of the engine wait for a place. -/
def previewWaits (s : State) : Bool := s.port.work.any OwnWork.isPreview

/-- The engine's waiting preview lines are given up with the job that formed them (R130, log 9). -/
def dropPreviewWork (s : State) : State :=
  { s with port := { s.port with work := s.port.work.filter fun w => !w.isPreview } }

/-- R7: one preview line of window w at a preview offset is written through the map; none when R6 rules the allocation out. -/
def writePreviewLine (s : State) (w : Fin 64) (l : Nat × List Byte × BitVec 64) : Option State :=
  let g := l.1 / Config.granule
  let mapped : Option State := if (s.previewEntry w g).isSome then some s else allocatePreview s w g
  mapped.map fun t =>
    match t.previewEntry w g with
    | some n => emit t (.line (.preview (n * Config.granule + l.1 % Config.granule) l.2.1 l.2.2))
    | none => t

/-- R125: the lines of a row in ascending address order. The granules of a row's lines are allocated together when the row is
formed, also while an earlier line of the row is held for a full inserted-write queue (DESIGN CHOICE, log 9). -/
def writePreviewLines (s : State) (w : Fin 64) : List (Nat × List Byte × BitVec 64) → Option State
  | [] => some s
  | l :: ls => (writePreviewLine s w l).bind fun s => writePreviewLines s w ls

/-- R117, R125, R126: a line goes through the pipeline under set d: it joins the row being formed, and when it completes
output row y the pixels are counted and the row's lines written. -/
def developLine (s : State) (w : Fin 64) (p : Profile) (d : DevSet) (l : Nat) (data : List Byte) : Option State :=
  let acc := s.engine.run.acc ++ data
  let perRow := 2 * d.scale * linesPerRow p.width
  if (l + 1) % perRow = 0 then
    let y := (l + 1) / perRow - 1
    let row := outputRow p d (s.engine.tones[d.tone]?.getD (.replicate 257 0)) y acc
    let run := { s.engine.run with acc := [], hist := row.foldl countPixel s.engine.run.hist,
                                   clip := row.foldl countClip s.engine.run.clip }
    let wo := p.width / (2 * d.scale)
    let ho := p.height / (2 * d.scale)
    writePreviewLines (s.setEngine { s.engine with run := run }) w
      (rowWrites (y * wo * 4) (row.flatMap Pixel.bytes) (decide (y + 1 = ho)))
  else some (s.setEngine { s.engine with run := { s.engine.run with acc := acc } })

/-! ### Choice, beginning and resuming -/

/-- The engine becomes IDLE (R127). -/
def engineIdle (s : State) : State :=
  publish (s.setEngine { s.engine with activity := .idle, run := freshRun, replayLine := .none }) 5

/-- R129: the inline job of window w begins. -/
def beginInline (s : State) (w : Fin 64) : State :=
  publish (s.setEngine { s.engine with activity := .inline w, run := freshRun }) 5

/-- R7, R132: the replay job asks for line l of window w: a line in an unmapped granule is answered by zeros. -/
def requestLine (s : State) (w : Fin 64) (l : Nat) : State :=
  let o := 64 * l
  match s.rawEntry w (o / Config.granule) with
  | none => s.setEngine { s.engine with replayLine := .zeros }
  | some n =>
    issueRead (s.setEngine { s.engine with replayLine := .issued }) .replay (n * Config.granule + o % Config.granule)

/-- R132, R98: the running state with which a job of shot x begins or resumes. -/
def runOfJob (x : Shot) (p : Profile) (j : Job) : Running :=
  let start := j.nextRow * linesPerRow p.width
  match j.begun, j.saved with
  | true, some pr =>
    { nextLine := start, acc := [], hist := pr.hist, clip := pr.clip, crc := pr.crc, still := pr.still, rowWaits := false }
  | _, _ =>
    { freshRun with
      nextLine := start
      crc := if x.crc.isNone then some crcInit else none
      still := if x.focusCheck.isNone then x.snapshot.map fun n => { zone := n.zone, sums := zeroProfiles } else none }

/-- R132: the head job begins or resumes. Cursor page line 5, with the activity (R127), is inserted before mirror line 0x0C0 with the
status REPLAYING, which no rule orders (DESIGN CHOICE, log 14). -/
def beginReplay (s : State) (j : Job) (rest : List Job) : State :=
  match (s.shot j.window).profile with
  | none => s
  | some p =>
    let run := runOfJob (s.shot j.window) p j
    let s := s.setEngine { s.engine with
      activity := .replay, run := run, queue := { j with begun := true, saved := none } :: rest }
    let s := publish s 5
    let s := refreshReady (changeDev s j.window fun x => { x with dev := .replaying }) j.window
    requestLine s j.window run.nextLine

/-- R127: an IDLE engine chooses its work. -/
def engineChoose (s : State) : State :=
  if s.engine.activity = .idle then
    match inlineShot s with
    | some w => beginInline s w
    | none =>
      match s.engine.queue with
      | [] => s
      | j :: rest => if (s.shot j.window).state = .capturing then s else beginReplay s j rest
  else s

/-- R134: a shot's status has become INLINE: a running replay job is asked to suspend, and an IDLE engine begins. -/
def inlineOpened (s : State) : State :=
  if s.engine.activity = .replay then s.setEngine { s.engine with suspend := true } else engineChoose s

/-- R130: the inline job of window w is abandoned: running, it is dropped and the engine becomes IDLE; not yet begun, the
suspend request is withdrawn. Cursor page line 5 is inserted here, before the mirror lines of the rule that caused it, and the engine's
choice follows with that rule (DESIGN CHOICE, log 14). -/
def abandonInline (s : State) (w : Fin 64) : State :=
  let s := { s with taps := { s.taps with fifo := s.taps.fifo.filter fun e => e.window ≠ w } }
  if s.engine.activity = .inline w then engineIdle (dropPreviewWork s)
  else s.setEngine { s.engine with suspend := false }

/-! ### The end of a line and of a job -/

/-- Reads of a dropped replay job are discarded when their data returns (R134, R135). -/
def dropReplayReads (s : State) : State :=
  { s with port := { s.port with
      reads := s.port.reads.map fun r => if r.purpose = .replay then { r with purpose := .dropped } else r
      readFlight := s.port.readFlight.filter fun r => r.purpose ≠ .replay
      heldReads := s.port.heldReads.filter fun r => r.1 ≠ .replay } }

/-- R40, R135: the engine drops the job of the DISCARDING shot in window w and signals stopped; the shot is released, and the engine
becomes IDLE and makes its choice. -/
def stopEngine (s : State) (w : Fin 64) : State :=
  let s :=
    match s.engine.activity with
    | .replay => dropReplayReads (removeJob s w)
    | _ => { s with taps := { s.taps with fifo := s.taps.fifo.filter fun e => e.window ≠ w } }
  let s := releaseShot s w .discarded
  engineChoose (engineIdle (s.setEngine { s.engine with suspend := false, stop := none }))

/-- R136: a job's histograms and clip counts pass to the record with status DONE. -/
def doneDev (s : State) (w : Fin 64) : State :=
  let run := s.engine.run
  mirror (s.modShot w fun x =>
    { x with dev := .done, reason := none, checkOnly := false, hist := run.hist, clip := run.clip }) w ([3, 6] ++ histLines)

/-- R129: the inline job of window w ends. -/
def endInline (s : State) (w : Fin 64) : State :=
  let s := returnAll (doneDev s w) w
  let s := refreshReady (developed s w 0) w
  engineChoose (engineIdle (releaseCheck s w))

/-- R25: the settled value of a CHECK job. -/
def settledDev (x : Shot) : DevStatus := if x.developed then .failed else .none

/-- R25, R136: the status of window w settles at the end of a CHECK job; its reason stays. -/
def settleDev (s : State) (w : Fin 64) : State :=
  match settledDev (s.shot w) with
  | .failed => setFailed s w (s.shot w).reason
  | d => changeDev s w fun x => { x with dev := d, checkOnly := false }

/-- R133: the running replay job j ends. -/
def endReplay (s : State) (j : Job) : State :=
  let w := j.window
  let s :=
    match s.engine.run.crc with
    | none => s
    | some r => changeDev s w fun x => { x with crc := some (crcFinish r, .replay) }
  let s :=
    match j.kind with
    | .develop => doneDev s w
    | .check => settleDev s w
  let s := returnAll (removeJob s w) w
  let s := developed s w (match j.kind with
    | .develop => 1
    | .check => 2)
  let s := releaseCheck (evaluateUndecided (refreshReady (releaseCheck s w) w) w) w
  let s := s.setEngine { s.engine with suspend := false }
  engineChoose (engineIdle s)

/-- R134: the running replay job j is suspended at a boundary, its next input row `row`. -/
def suspendReplay (s : State) (j : Job) (rest : List Job) (row : Nat) : State :=
  let run := s.engine.run
  let s := s.setEngine { s.engine with
    suspend := false
    queue := { j with nextRow := row,
                      saved := some { crc := run.crc, hist := run.hist, clip := run.clip, still := run.still } } :: rest }
  let s := refreshReady (changeDev s j.window fun x => { x with dev := .queued }) j.window
  engineChoose (engineIdle s)

/-- R132: line number l ends a boundary of a job: an output row of a DEVELOP job, an input row of a CHECK job. -/
def boundaryAt (p : Profile) (j : Job) (l : Nat) : Bool :=
  match j.kind with
  | .develop => l % (2 * p.devSet.scale * linesPerRow p.width) == 0
  | .check => l % linesPerRow p.width == 0

/-- The line in use is complete, with its writes inserted: a stop request is met (R135), the job ends (R129, R133), is
suspended (R134), or goes on. -/
def afterLine (s : State) : State :=
  match s.engine.activity with
  | .idle => s
  | .inline w =>
    match (s.shot w).profile with
    | none => s
    | some p =>
      if s.engine.stop = some w then stopEngine s w
      else if s.engine.run.nextLine = p.lines then endInline s w
      else s
  | .replay =>
    match s.engine.queue with
    | [] => s
    | j :: rest =>
      match (s.shot j.window).profile with
      | none => s
      | some p =>
        let l := s.engine.run.nextLine
        if s.engine.stop = some j.window then stopEngine s j.window
        else if l = p.lines then endReplay s j
        else if boundaryAt p j l then
          let row := l / linesPerRow p.width
          if s.engine.suspend then suspendReplay s j rest row
          else requestLine (s.setEngine { s.engine with queue := { j with nextRow := row } :: rest }) j.window l
        else requestLine s j.window l

/-- R56: the end of a line waits until the preview lines of its row are inserted. -/
def finishLine (s : State) : State :=
  if previewWaits s then s.setEngine { s.engine with run := { s.engine.run with rowWaits := true } } else afterLine s

/-- R56: a row's preview lines have been inserted and the engine goes on. -/
def engineContinue (s : State) : State :=
  if s.engine.run.rowWaits && !previewWaits s then
    afterLine (s.setEngine { s.engine with run := { s.engine.run with rowWaits := false } })
  else s

/-! ### Commands -/

/-- R129: the inline job of window w consumes the entry at the head of the tap FIFO. -/
def consumeEntry (s : State) (w : Fin 64) (e : FifoEntry) (rest : List FifoEntry) : Option State :=
  let s := { s with taps := { s.taps with fifo := rest } }
  let s := s.setEngine { s.engine with run := { s.engine.run with nextLine := e.line + 1 } }
  match (s.shot w).profile, (s.shot w).devSet with
  | some p, some d => (developLine s w p d e.line e.data).map finishLine
  | _, _ => some s

/-- INLINE_LINE_CONSUMED (R129): while the engine runs an inline job and its last row is written. With a stop request and no
entry the engine uses no line and stops (R135). -/
def execInlineLineConsumed (s : State) : Host.Outcome State Fault Refusal :=
  match s.engine.activity with
  | .inline w =>
    if s.engine.run.rowWaits then .next s
    else
      match s.taps.fifo with
      | [] => .next (if s.engine.stop = some w then stopEngine s w else s)
      | e :: rest =>
        match consumeEntry s w e rest with
        | some s' => .next s'
        | none => .fault .allocationBeyondReservation
  | _ => .next s

/-- The data of the raw line the replay job waits for, once DRAM has returned it, and the state without it. -/
def returnedLine (s : State) : Option (List Byte × State) :=
  match s.engine.replayLine with
  | .none => none
  | .zeros => some (zeroLine, s)
  | .issued =>
    (s.port.readFlight.find? fun r => r.purpose = .replay).map fun r =>
      (r.data, { s with port := { s.port with readFlight := s.port.readFlight.filter fun r => r.purpose ≠ .replay } })

/-- R98, R132: line l goes to the replay still accumulation, and the last line of the range makes the check. -/
def replayStill (s : State) (w : Fin 64) (p : Profile) (l : Nat) (data : List Byte) : State :=
  match s.engine.run.still with
  | none => s
  | some a =>
    if stillLine p a.zone.val l then
      let a := addStillLine p l data a
      if lastStillLine p a.zone.val = some l then
        measureStill (s.setEngine { s.engine with run := { s.engine.run with still := none } }) w p a .replay
      else s.setEngine { s.engine with run := { s.engine.run with still := some a } }
    else s

/-- R132: the running replay job j uses a line. Where it is the last of the still-check range and completes an output row too, the
check's mirror line and notice come before the row's preview lines, which no rule orders (DESIGN CHOICE, log 14). -/
def useReplayLine (s : State) (j : Job) (data : List Byte) : Option State :=
  match (s.shot j.window).profile with
  | none => some s
  | some p =>
    let l := s.engine.run.nextLine
    let s := s.setEngine { s.engine with
      replayLine := .none
      run := { s.engine.run with nextLine := l + 1, crc := s.engine.run.crc.map fun r => crcBytes r data } }
    let s := replayStill s j.window p l data
    match j.kind, j.set with
    | .develop, some d => (developLine s j.window p d l data).map finishLine
    | _, _ => some (finishLine s)

/-- REPLAY_LINE_RETURNED (R132): while a replay job runs, its last row is written and the line it waits for has returned. -/
def execReplayLineReturned (s : State) : Host.Outcome State Fault Refusal :=
  match s.engine.activity, s.engine.queue with
  | .replay, j :: _ =>
    if s.engine.run.rowWaits then .next s
    else
      match returnedLine s with
      | none => .next s
      | some (data, t) =>
        match useReplayLine t j data with
        | some s' => .next s'
        | none => .fault .allocationBeyondReservation
  | _, _ => .next s

end Sys2Proof.Machine
end

