-- ==== Sys2Proof/Machine/EngineOrders.lean ====
section
/-! DEFINITION. The orders of the Development Engine: LOAD TONE (R116) and REDEVELOP (R138). -/

namespace Sys2Proof.Machine

/-! ### LOAD TONE -/

/-- R116: LOAD TONE. -/
def loadToneRule (o : OrderRecord) (img : List Byte) (s : State) : State × OrderStatus :=
  let t := field o.params 0 1
  if h : t < 2 then
    if toneInUse s t then (s, .busy)
    else (s.setEngine { s.engine with tones := s.engine.tones.set t (decodeTone img) }, .done)
  else (s, .badParam)

/-- LOAD_TONE (R116). -/
def execLoadTone (s : State) : Host.Outcome State Fault Refusal := runOrder s .loadTone loadToneRule

/-! ### REDEVELOP -/

/-- R138: a set with the gains, the matrix and the tone table index of the order; its scale stays (R115). -/
def newSet (o : OrderRecord) (d : DevSet) : DevSet :=
  { scale := d.scale, gains := gainsAt o.params 0, matrix := matrixAt o.params 6, tone := field o.params 24 1 }

/-- R17: the shortfall of a shot's preview part. -/
def shortfall (x : Shot) : Nat :=
  (x.profile.map Profile.previewGranules).getD 0 - x.previewMapped - x.reservation

/-- The record's set in force takes the new values (R115, R138), written to the mirror when they differ (R45). -/
def setInForce (s : State) (w : Fin 64) (d : DevSet) : State :=
  mirrorChanged (s.modShot w fun x => { x with devSet := some d }) w (s.shot w)

/-- R138: the job of window w takes the set, from row 0 and with nothing begun or saved when `restart` holds. -/
def rewriteJob (s : State) (w : Fin 64) (d : DevSet) (restart : Bool) : State :=
  s.setEngine { s.engine with queue := s.engine.queue.map fun j =>
    if j.window = w then
      (if restart then { j with kind := .develop, set := some d, nextRow := 0, begun := false, saved := none }
        else { j with set := some d })
    else j }

/-- R138, QUEUED with a DEVELOP job: the job's set is replaced; a begun job starts anew. -/
def redevelopQueued (s : State) (w : Fin 64) (j : Job) (d : DevSet) : State × OrderStatus :=
  (rewriteJob (setInForce s w d) w d j.begun, .done)

/-- R138, QUEUED with a CHECK job: the shortfall is reserved and the job becomes a DEVELOP job. -/
def redevelopCheck (s : State) (w : Fin 64) (d : DevSet) : State × OrderStatus :=
  let n := shortfall (s.shot w)
  if available s < n then (s, .full)
  else
    let s := rewriteJob (setInForce (takeReservation s w n) w d) w d true
    (refreshReady (changeDev s w fun x => { x with checkOnly := false, reason := none }) w, .done)

/-- R138, DONE or FAILED: the shortfall is reserved and a DEVELOP job joins the tail. The engine's choice (R127) comes after the status
QUEUED and the tether head, and before the order's status byte, which no rule orders (DESIGN CHOICE, log 14). -/
def redevelopAnew (s : State) (w : Fin 64) (d : DevSet) : State × OrderStatus :=
  let n := shortfall (s.shot w)
  if Config.replayPlaces ≤ s.engine.queue.length || available s < n then (s, .full)
  else
    let s := setInForce (takeReservation s w n) w d
    let s := (offerJob s w .develop).1
    let s := changeDev s w fun x => { x with dev := .queued, reason := none, checkOnly := false }
    (engineChoose (releaseCheck (refreshReady s w) w), .done)

/-- R138: REDEVELOP. -/
def redevelopRule (o : OrderRecord) (_ : List Byte) (s : State) : State × OrderStatus :=
  forShot o s fun w s =>
    let x := s.shot w
    if 1 < field o.params 24 1 then (s, .badParam)
    else
      match x.state, x.devSet, x.developed with
      | .sealed, some d, true =>
        if x.dev = .inline || x.dev = .replaying || x.tether = .sending then (s, .busy)
        else if x.dev = .queued then
          match s.engine.queue.find? fun j => j.window = w with
          | none => (s, .state)
          | some j => if j.kind = .develop then redevelopQueued s w j (newSet o d) else redevelopCheck s w (newSet o d)
        else redevelopAnew s w (newSet o d)
      | _, _, _ => (s, .state)

/-- REDEVELOP (R138). -/
def execRedevelop (s : State) : Host.Outcome State Fault Refusal := runOrder s .redevelop redevelopRule

end Sys2Proof.Machine
end

