-- ==== Sys2Proof/Machine/LensLine.lean ====
section
/-! DEFINITION. The Lens Line Controller (chapter 6): request frames and the judging of replies (R104, R181), the arbiter
(R114), the lens states (R101 to R107), the drive slot (R109, R110), STOP (R111) and lens messages (R112, R113). -/

namespace Sys2Proof.Machine

/-! ### Frames -/

/-- R104: the sum of bytes modulo 256. -/
def checkByte (bs : List Byte) : Byte := bs.foldl (· + ·) 0

/-- R104, 11.4: the request frame with its check byte. -/
def requestFrame (r : LensRequest) : List Byte :=
  let body :=
    match r with
    | .drive target speed => [r.code] ++ leBytes 2 target ++ byte1 speed
    | .message m => [r.code] ++ byte1 m.data.length ++ m.data
    | _ => [r.code]
  body ++ [checkByte body]

/-- Status of a reply (R104). -/
inductive ReplyStatus where
  | ok | busy | refused
  deriving DecidableEq, Repr

/-- What a good reply carries. -/
structure Reply where
  status : ReplyStatus
  report : PositionReport
  info : LensInfo
  data : List Byte
  deriving DecidableEq, Repr

/-- Codes of the reply status (11.4); a status byte above 2 makes the reply a timeout (R181). -/
def replyStatusOf (n : Nat) : Option ReplyStatus :=
  match n with
  | 0 => some .ok
  | 1 => some .busy
  | 2 => some .refused
  | _ => none

/-- R104, R181: the length that a reply to the request must have. -/
def replyLength (r : LensRequest) (bs : List Byte) : Option Nat :=
  match r with
  | .ident => some 12
  | .message _ => if field bs 5 1 ≤ 8 then some (7 + field bs 5 1) else none
  | _ => some 6

/-- R104, R181: a reply is good when it is complete, no longer than it should be, its check byte right, its kind that of the
request, its status and moving flag in range, and an IDENT reply's minimum not above its maximum. -/
def judgeReply (r : LensRequest) (bs : List Byte) : Option Reply :=
  let info : LensInfo := { identity := field bs 5 2, minimum := field bs 7 2, maximum := field bs 9 2 }
  match replyLength r bs, replyStatusOf (field bs 1 1) with
  | some n, some st =>
    if bs.length = n ∧ bs.getD 0 0 = r.code ∧ bs.getD (n - 1) 0 = checkByte (bs.take (n - 1)) ∧ field bs 4 1 ≤ 1 ∧
        (r = .ident → info.minimum ≤ info.maximum) then
      some { status := st, report := { position := field bs 2 2, moving := decide (field bs 4 1 = 1) }, info := info,
             data := (bs.drop 6).take (n - 7) }
    else none
  | _, _ => none

/-! ### Publishing -/

/-- R100: line 6 is written back when lens state, information or position report has changed. -/
def lensChanged (before s : State) : State :=
  if before.lens.state = s.lens.state && before.lens.info = s.lens.info && before.lens.report = s.lens.report then s
  else publish s 6

/-! ### The arbiter -/

/-- R104: a request begins an exchange. -/
def beginExchange (s : State) (r : LensRequest) : State :=
  { s with lens := { s.lens with
      exchange := some { request := r, frame := requestFrame r, since := s.now, judgeStop := false } } }

/-- R110: the drive slot's target may begin. -/
def driveMayBegin (s : State) : Bool :=
  s.lens.drive.isSome && decide (s.lens.state = .ready) && decide (capturingCount s = 0)

/-- R110: the speed class for a distance. -/
def speedClass (d : Nat) : Nat :=
  if d ≤ 15 then 0 else if d ≤ 127 then 1 else if d ≤ 1023 then 2 else 3

/-- R110: distance between a target and the last position report. -/
def driveDistance (s : State) (target : Nat) : Nat :=
  let p := (s.lens.report.map PositionReport.position).getD target
  (target - p) + (p - target)

/-- R110: the drive begins; the target leaves the slot. -/
def beginDrive (s : State) : State :=
  match s.lens.drive with
  | none => s
  | some t => beginExchange { s with lens := { s.lens with drive := none } } (.drive t (speedClass (driveDistance s t)))

/-- R113: the head of the message queue leaves it and its exchange begins. -/
def beginMessage (s : State) : State :=
  match s.lens.messages with
  | [] => s
  | m :: rest => beginExchange { s with lens := { s.lens with messages := rest } } (.message m)

/-- R114: the arbiter chooses the next request by the lens state. R108 and R111 say that a STATUS or STOP exchange clears its pending flag,
and not when; here the flag falls as the exchange begins, and so do those of IDENT and poll, so that an event during the exchange sets it
again and a second request goes out (DESIGN CHOICE, log 15). -/
def arbitrate (s : State) : State :=
  if s.lens.exchange.isSome then s
  else
    match s.lens.state with
    | .absent => s
    | .identifying =>
      if s.lens.identPending then beginExchange { s with lens := { s.lens with identPending := false } } .ident else s
    | .unresponsive =>
      if s.lens.pollPending then
        beginExchange { s with lens := { s.lens with pollPending := false } }
          (if s.lens.info.isSome then .status else .ident)
      else s
    | .ready =>
      if s.lens.stopPending then beginExchange { s with lens := { s.lens with stopPending := false } } .stop
      else if !s.lens.messages.isEmpty && driveMayBegin s then
        (if s.lens.previous = .message then beginDrive s else beginMessage s)
      else if !s.lens.messages.isEmpty then beginMessage s
      else if driveMayBegin s then beginDrive s
      else if s.lens.statusPending then beginExchange { s with lens := { s.lens with statusPending := false } } .status
      else s

/-! ### Lens messages' replies -/

/-- LENS REPLY statuses (R113, 11.1). -/
inductive LensReplyStatus where
  | ok | busy | refused | timeout | noLens
  deriving DecidableEq, Repr

/-- Codes of 11.1. -/
def LensReplyStatus.code : LensReplyStatus → Nat
  | .ok => 0 | .busy => 1 | .refused => 2 | .timeout => 3 | .noLens => 4

/-- R113, R180: the LENS REPLY notice: status, length byte and 8 data bytes. -/
def lensReply (s : State) (m : LensMessage) (st : LensReplyStatus) (data : List Byte) : State :=
  hand s (plainNotice .lensReply m.tag (byte1 st.code ++ byte1 data.length ++ padTo 8 data))

/-- R103, R106: every entry of the message queue is completed with NO-LENS, in queue order. -/
def flushMessages (s : State) : State :=
  s.lens.messages.foldl (fun s m => lensReply s m .noLens []) { s with lens := { s.lens with messages := [] } }

/-! ### State changes -/

/-- R102: lens-present becomes active with the lens ABSENT. -/
def attachLens (s : State) : State :=
  arbitrate (publish { s with lens := { s.lens with
    state := .identifying, timeouts := 0, info := none, identPending := true } } 6)

/-- R103: lens-present becomes inactive. Cursor page line 6 is inserted once, before the NO-LENS replies of steps 1 and 3, although the
information and the report go in step 5: no rule orders the line against the replies (DESIGN CHOICE, log 14). -/
def detachLens (s : State) : State :=
  let before := s
  let s := { s with lens := { s.lens with
    state := .absent, exchange := none, drive := none, statusPending := false, stopPending := false, identPending := false,
    pollPending := false, poll := .stopped, identRetry := .stopped, timeouts := 0, info := none, report := none } }
  let s := lensChanged before s
  let s :=
    match before.lens.exchange with
    | some x => match x.request with
      | .message m => lensReply s m .noLens []
      | _ => s
    | none => s
  flushMessages s

/-- R106: the third consecutive timeout. The LENS FAULT notice carries the kind of the request that timed out third. -/
def loseLens (s : State) (kind : Byte) : State :=
  let s := { s with lens := { s.lens with
    state := .unresponsive, drive := none, statusPending := false, stopPending := false, identPending := false,
    identRetry := .stopped, poll := .running (s.now + Config.lensTimer) } }
  let s := publish s 6
  let s := flushMessages s
  hand s (plainNotice .lensFault 0 ([kind] ++
    (match s.lens.report with
      | none => List.replicate 4 0
      | some r => [1] ++ leBytes 2 r.position ++ [flagByte r.moving]) ++
    [flagByte s.lens.info.isSome]))

/-- R110: a target returns to the slot if the slot is still empty. -/
def returnTarget (s : State) (t : Nat) : State :=
  match s.lens.drive with
  | none => { s with lens := { s.lens with drive := some t } }
  | some _ => s

/-- R102, R107: what a good IDENT reply does in IDENTIFYING or UNRESPONSIVE. -/
def identReplied (s : State) (r : Reply) : State :=
  match r.status with
  | .ok => { s with lens := { s.lens with
      state := .ready, info := some r.info, poll := .stopped, pollPending := false } }
  | _ => { s with lens := { s.lens with
      state := .identifying, poll := .stopped, pollPending := false,
      identRetry := .running (s.now + Config.lensTimer) } }

/-- R105: a good reply is handed to the request's owner. -/
def goodReply (s : State) (x : Exchange) (r : Reply) : State :=
  match x.request with
  | .ident => identReplied s r
  | .status =>
    if s.lens.state = .unresponsive then
      { s with lens := { s.lens with state := .ready, poll := .stopped, pollPending := false } }
    else s
  | .drive t _ =>
    let s := if r.status = .busy then returnTarget s t else s
    if x.judgeStop && r.report.moving then { s with lens := { s.lens with stopPending := true } } else s
  | .stop => s
  | .message _ => s

/-- R105, R106: the request's owner is told of a timeout. -/
def timedOut (s : State) (x : Exchange) : State :=
  match x.request with
  | .ident => if s.lens.state = .identifying then { s with lens := { s.lens with identPending := true } } else s
  | .drive t _ => returnTarget s t
  | .message m => lensReply s m .timeout []
  | _ => s

/-- R105, R106, R113: the exchange in flight ends with the given reply bytes. No rule orders LENS REPLY against cursor page line 6: a
good reply to a message has the line inserted before LENS REPLY, and at the third timeout of a message the TIMEOUT reply is handed
over first, then comes the line, and LENS FAULT follows (DESIGN CHOICE, log 14). -/
def endExchange (s : State) (x : Exchange) (bytes : List Byte) : State :=
  let before := s
  let s := { s with lens := { s.lens with
    exchange := none
    previous := match x.request with
      | .message _ => .message
      | _ => .other } }
  match judgeReply x.request bytes with
  | some r =>
    let s := { s with lens := { s.lens with report := some r.report, timeouts := 0 } }
    let s := lensChanged before (goodReply s x r)
    let s :=
      match x.request with
      | .message m => lensReply s m
          (match r.status with
            | .ok => .ok
            | .busy => .busy
            | .refused => .refused) r.data
      | _ => s
    arbitrate s
  | none =>
    let s := timedOut s x
    let s :=
      if s.lens.state = .identifying ∨ s.lens.state = .ready then
        let s := { s with lens := { s.lens with timeouts := s.lens.timeouts + 1 } }
        if Config.timeoutLimit ≤ s.lens.timeouts then loseLens s x.request.code else s
      else s
    arbitrate s

/-! ### What other blocks tell the controller -/

/-- R108: a view event sets status pending while the lens is READY. -/
def requestStatus (s : State) : State :=
  if s.lens.state = .ready then arbitrate { s with lens := { s.lens with statusPending := true } } else s

/-- R109: the Focus Unit places a target in the drive slot. -/
def placeTarget (s : State) (t : Nat) : State :=
  arbitrate { s with lens := { s.lens with drive := some t } }

/-- R111: an open is admitted while the lens is READY. -/
def judgeStopAtOpen (s : State) : State :=
  if s.lens.state = .ready then
    if (s.lens.report.map PositionReport.moving).getD false then
      arbitrate { s with lens := { s.lens with stopPending := true } }
    else
      match s.lens.exchange with
      | some x => match x.request with
        | .drive _ _ => { s with lens := { s.lens with exchange := some { x with judgeStop := true } } }
        | _ => s
      | none => s
  else s

/-! ### Commands -/

/-- LENS_PRESENT_ACTIVE (R102). Before start-up ends only the input's level changes, which the end of start-up samples
(R100); in a strap fault the controller takes no action (R178). -/
def execLensPresentActive (s : State) : Host.Outcome State Fault Refusal :=
  let s := { s with lensPin := true }
  .next (if s.phase = .started && s.lens.state = .absent then attachLens s else s)

/-- LENS_PRESENT_INACTIVE (R103). -/
def execLensPresentInactive (s : State) : Host.Outcome State Fault Refusal :=
  let s := { s with lensPin := false }
  .next (if s.lens.state = .absent then s else detachLens s)

/-- LENS_EXCHANGE_END (R105): 1 ms has passed since the request (R104). -/
def execLensExchangeEnd (reply : List Byte) (s : State) : Host.Outcome State Fault Refusal :=
  match s.lens.exchange with
  | none => .next s
  | some x => .next (endExchange (s.advanceTo (x.since + Config.exchangeTime)) x reply)

/-- IDENT_RETRY_TIMER_EXPIRY (R102). -/
def execIdentRetryTimerExpiry (s : State) : Host.Outcome State Fault Refusal :=
  match s.lens.identRetry with
  | .stopped => .next s
  | .running d =>
    .next (arbitrate { s.advanceTo d with lens := { s.lens with identRetry := .stopped, identPending := true } })

/-- R107: a poll becomes pending, and the timer is restarted with 50 ms. -/
def pollDue (s : State) : State :=
  arbitrate { s with lens := { s.lens with pollPending := true, poll := .running (s.now + Config.lensTimer) } }

/-- POLL_TIMER_EXPIRY (R107). -/
def execPollTimerExpiry (s : State) : Host.Outcome State Fault Refusal :=
  match s.lens.poll with
  | .stopped => .next s
  | .running d => .next (if s.lens.state = .unresponsive then pollDue (s.advanceTo d) else s)

/-- R112: the lens message order. -/
def lensMessageOrder (o : OrderRecord) (_ : List Byte) (s : State) : State × OrderStatus :=
  let kind := field o.params 0 1
  let len := field o.params 1 1
  if kind < 0x40 ∨ 0x7F < kind ∨ 8 < len then (s, .badParam)
  else if s.lens.state ≠ .ready then (s, .noLens)
  else if Config.messagePlaces ≤ s.lens.messages.length then (s, .full)
  else
    let m : LensMessage := { tag := o.tag, kind := BitVec.ofNat 8 kind, data := padTo len ((o.params.drop 2).take len) }
    (arbitrate { s with lens := { s.lens with messages := s.lens.messages ++ [m] } }, .accepted)

/-- LENS_MESSAGE (R112). -/
def execLensMessage (s : State) : Host.Outcome State Fault Refusal :=
  runOrder s .lensMessage lensMessageOrder

end Sys2Proof.Machine
end

