-- ==== Sys2Proof/Machine/Taps.lean ====
section
/-! DEFINITION. The shot taps (R61 to R68, R82): what a bound context does with each stored CAPTURE write of its shot. -/

namespace Sys2Proof.Machine

/-- The context bound to the shot in window w. -/
def contextOf (s : State) (w : Fin 64) : Option TapContext :=
  (s.taps.contexts.toList.find? fun c => (c.map TapContext.window) = some w).join

/-- The state with the contexts changed one by one. -/
def State.mapContexts (s : State) (f : Option TapContext → Option TapContext) : State :=
  { s with taps := { s.taps with contexts := s.taps.contexts.map f } }

/-- The context bound to the shot in window w changed. -/
def modContext (s : State) (w : Fin 64) (f : TapContext → TapContext) : State :=
  s.mapContexts fun o => o.map fun c => if c.window = w then f c else c

/-- R61: the context of window w is unbound, with its running CRC, range and still accumulation. -/
def unbindContext (s : State) (w : Fin 64) : State :=
  s.mapContexts fun o => o.filter fun c => c.window ≠ w

/-- R30, R61: a context is bound in a free place. No rule says which when both are free; the model takes the first (DESIGN CHOICE,
log 25). -/
def bindContext (s : State) (c : TapContext) : State :=
  let i : Nat := if (s.taps.contexts.get 0).isNone then 0 else 1
  { s with taps := { s.taps with contexts := s.taps.contexts.setIfInBounds i (some c) } }

/-- R137: the DEVELOP FAILED notices that follow a notice: of a DEVELOP job and of a CHECK job that were not taken. -/
def jobsNotTaken (s : State) (w : Fin 64) (develop check : Bool) : State :=
  let s := if develop then developFailed s w .queueFull (some .develop) else s
  if check then developFailed s w .queueFull (some .check) else s

/-- R66, R82, R97: an in-order line of the still-check range goes to the still accumulation, and the last makes the check. -/
def tapStill (s : State) (w : Fin 64) (p : Profile) (c : TapContext) (l : Nat) (data : List Byte) : State :=
  match c.range, c.still with
  | some z, some a =>
    if stillLine p z.val l then
      if lastStillLine p z.val = some l then
        measureStill (modContext s w fun c => { c with still := none }) w p (addStillLine p l data a) .inline
      else modContext s w fun c => { c with still := some (addStillLine p l data a) }
    else s
  | _, _ => s

/-- R67, R68: an in-order line goes to the tap FIFO; a full FIFO abandons the inline development. No rule orders cursor page line 5 (the
IDLE engine, the offered job) against the status's mirror line, nor the engine's next choice against DEVELOP FAILED: line 5 comes before
the mirror line, and the choice after the notice (DESIGN CHOICE, log 14). -/
def tapFeed (s : State) (w : Fin 64) (l : Nat) (data : List Byte) : State :=
  if s.taps.fifo.length < Config.fifoPlaces then
    { s with taps := { s.taps with fifo := s.taps.fifo ++ [{ window := w, line := l, data := data }] } }
  else
    let s := abandonInline (modContext s w fun c => { c with inlineFeed := false }) w
    match putOff s w .overflow with
    | (s, notTaken) => engineChoose (jobsNotTaken s w notTaken false)

/-- R62: an in-order line. Where it is the last of the still-check range and finds the tap FIFO full too (R68, R97), the focus check, with
its mirror line 2 and its notice, comes before the overflow's cursor page line 5, mirror line 3 and DEVELOP FAILED, which no rule orders
(DESIGN CHOICE, log 14). -/
def tapInOrder (s : State) (w : Fin 64) (p : Profile) (c : TapContext) (l : Nat) (data : List Byte) : State :=
  let s := modContext s w fun c => { c with next := l + 1, crc := crcBytes c.crc data }
  let s := tapStill s w p c l data
  if c.inlineFeed then tapFeed s w l data else s

/-- R63, R64: the shot's readout is disordered. No rule orders cursor page line 5 (the IDLE engine, the offered job) against the mirror
line of the status that steps 3 and 4 set, nor the engine's next choice against TAP DISORDER and DEVELOP FAILED: line 5 comes before that
mirror line, and the choice after the notices, so that TAP DISORDER carries QUEUED (DESIGN CHOICE, log 14). -/
def tapDisorder (s : State) (w : Fin 64) (c : TapContext) (l : Nat) (full : Bool) : State :=
  let s := modContext s w fun c => { c with following := false, crc := crcInit, still := none, inlineFeed := false }
  let s := changeDev s w fun x => { x with tapStatus := .disordered }
  let wasInline := decide ((s.shot w).dev = .inline)
  let (s, developRefused) := if wasInline then putOff (abandonInline s w) w .disorder else (s, false)
  let (s, checkRefused) := offerCheck s w
  let s := hand s (shotNotice s w .tapDisorder 0
    (leBytes 4 c.next ++ leBytes 4 l ++ byte1 (if full then 1 else 0) ++ byte1 (s.shot w).dev.code))
  engineChoose (jobsNotTaken s w developRefused checkRefused)

/-- R62, R63: the bound context receives a stored write to line l. -/
def tapReceive (s : State) (w : Fin 64) (l : Nat) (full : Bool) (data : List Byte) : State :=
  match contextOf s w, (s.shot w).profile with
  | some c, some p =>
    if c.following then
      if full && decide (l = c.next) then tapInOrder s w p c l data else tapDisorder s w c l full
    else s
  | _, _ => s

end Sys2Proof.Machine
end

