-- ==== Sys2Proof/Machine/ShotTable.lean ====
section
/-! DEFINITION. The Shot Table's life of a shot (chapter 2): opening (R29 to R31, R96), sealing (R34 to R37), DISCARD
(R39), the profile orders (R27, R28) and PROTECT, UNPROTECT (R41). RATE stands with the tether orders. -/

namespace Sys2Proof.Machine

/-- R24: the Shot Table tells the Lens Line Controller that the CAPTURING count has fallen (R114: at 0 the drive may begin). -/
def capturingFell (s : State) : State := if capturingCount s = 0 then arbitrate s else s

/-! ### Sealing -/

/-- Seal causes (R37, 11.1). -/
inductive SealCause where
  | finalLine | order | timeout
  deriving DecidableEq, Repr

/-- Codes of 11.1. -/
def SealCause.code : SealCause → Nat
  | .finalLine => 0 | .order => 1 | .timeout => 2

/-- R37 step 2, R65: the context has received the whole frame in order. -/
def tapComplete (c : TapContext) (p : Profile) : Bool := c.following && decide (c.next = p.lines)

/-- R37 steps 1 and 2: SEALED, timer stopped, tap status settled, inline CRC recorded, context unbound. -/
def sealRecord (s : State) (w : Fin 64) : State :=
  let complete :=
    match contextOf s w, (s.shot w).profile with
    | some c, some p => tapComplete c p
    | _, _ => false
  let crc := (contextOf s w).map fun c => crcFinish c.crc
  unbindContext (s.modShot w fun x =>
    { x with
      state := .sealed
      timer := .stopped
      tapStatus := if x.tapStatus = .inOrder && !complete then .incomplete else x.tapStatus
      crc := if x.tapStatus = .inOrder && complete then crc.map fun v => (v, .inline) else x.crc }) w

/-- R14, R16: how much of the reservation a seal returns: the raw part, and the preview part unless the engine will still
write preview lines. -/
def sealReturn (x : Shot) : Nat :=
  let rawPart := min x.reservation ((x.profile.map Profile.rawGranules).getD 0 - x.rawMapped)
  let keeps := decide (x.dev = .inline) || ((decide (x.dev = .queued) || decide (x.dev = .replaying)) && !x.checkOnly)
  if keeps then rawPart else x.reservation

/-- R37 steps 6 and 7: card, verify and tether status of a sealed shot, written back when they change. -/
def sealStatuses (s : State) (w : Fin 64) : State :=
  mirrorChanged (s.modShot w fun x =>
    { x with
      card := if (x.profile.map Profile.cardRequired).getD false then .pending else .notRequired
      verify := .none
      tether := if (x.profile.map Profile.tetherEvaluated).getD false then .undecided else .notRequired }) w (s.shot w)

/-- R37: a seal, whatever its cause. No rule places the engine's part among the steps (DESIGN CHOICE, log 14): at step 3 the engine
drops the inline work, with cursor page line 5, before the mirror lines of FAILED(INCOMPLETE); and the engine's choice of R127 comes
after step 9, so that SHOT SEALED carries QUEUED, never REPLAYING, for a job that begins at this seal. -/
def sealShot (s : State) (w : Fin 64) (cause : SealCause) : State :=
  let before := s.shot w
  let s := mirrorChanged (sealRecord s w) w before
  let incomplete := decide (before.tapStatus = .inOrder) && decide ((s.shot w).tapStatus = .incomplete)
  let dropsInline := incomplete && decide (before.dev = .inline)
  let s := if dropsInline then failDev (abandonInline s w) w .incomplete else s
  let (s, checkRefused) := if incomplete then offerCheck s w else (s, false)
  let s := returnReservation s w (sealReturn (s.shot w))
  let s := evaluateUndecided (sealStatuses s w) w
  let x := s.shot w
  let s := hand s (shotNotice s w .shotSealed 0
    (byte1 cause.code ++ byte1 x.tapStatus.code ++ leBytes 2 x.rawMapped ++ byte1 x.dev.code))
  let s := if dropsInline then developFailed s w .incomplete none else s
  let s := jobsNotTaken s w false checkRefused
  capturingFell (engineChoose (releaseCheck s w))

/-! ### Opening -/

/-- Reasons for refusing an open (R29, 11.1). -/
inductive OpenRefusal where
  | sequenceEnd | noProfile | noPool | twoOpen | noSpace
  deriving DecidableEq, Repr

/-- Codes of 11.1. -/
def OpenRefusal.code : OpenRefusal → Nat
  | .sequenceEnd => 0 | .noProfile => 1 | .noPool => 2 | .twoOpen => 3 | .noSpace => 4

/-- R29: the conditions in their order; the active profile when the attempt is admitted. -/
def judgeOpen (s : State) : Except OpenRefusal Profile :=
  if s.table.seqCounter = 0 then .error .sequenceEnd
  else
    match activeProfile s with
    | none => .error .noProfile
    | some p =>
      if s.pool.size = 0 then .error .noPool
      else if 2 ≤ capturingCount s then .error .twoOpen
      else if available s < p.need then .error .noSpace
      else .ok p

/-- R29: a refused attempt writes CAPTURE REFUSED with window, reason, active slot, need and available. -/
def refuseOpen (s : State) (w : Fin 64) (r : OpenRefusal) : State :=
  hand s { kind := .captureRefused, window := windowByte w, seq := 0, subject := 0,
           details := byte1 r.code ++ byte1 s.table.active.val ++
             leBytes 2 (((activeProfile s).map Profile.need).getD 0) ++ leBytes 2 (available s), fault := none }

/-- R31: the capture snapshot of the primary zone. -/
def takeSnapshot (s : State) : Option Snapshot :=
  s.focus.primary.map fun z =>
    { zone := z, state := (s.focus.zones.get z).state, q := (s.focus.zones.get z).q, conf := (s.focus.zones.get z).conf,
      exposure := (s.focus.zones.get z).exposure }

/-- R32: the counter after a number has been given; 0 when the numbers are exhausted. -/
def nextSeq (n : Nat) : Nat := if n = Config.max32 then 0 else n + 1

/-- R96: the zone of the still-check range: that of the snapshot, when the still grid has as many zones as the view grid. "NZC ×
NZR" is read as the number of zones, as R77 uses it (DEDUCED, log 19). -/
def stillRangeAtOpen (s : State) (p : Profile) (snap : Option Snapshot) : Option (Fin 63) :=
  match snap, s.focus.setup with
  | some n, some f =>
    if p.grid.zones = f.grid.zones then some n.zone else none
  | _, _ => none

/-- R34: the capture timer with its full timeout. -/
def captureTimer (now : Nat) (p : Profile) : Timer :=
  if p.timeout = 0 then .stopped else .running (now + p.timeout * 1000)

/-- R30, R31: the record of an admitted shot, before its development status. -/
def openedShot (s : State) (p : Profile) : Shot :=
  { freeShot with
    state := .capturing, seq := s.table.seqCounter, copy := some { slot := s.table.active, profile := p }
    width := p.width, height := p.height, rawLength := p.rawLength, reservation := p.need
    snapshot := takeSnapshot s
    devSet := if p.developed then some p.devSet else none
    rating := p.rating, storyKey := p.storyKey, timer := captureTimer s.now p }

/-- R30: the development status at open; the DEVELOP job of a shot that finds the inline side taken is offered. True when it
is not taken. -/
def openDev (s : State) (w : Fin 64) (p : Profile) (inlineTaken : Bool) : State × Bool :=
  if !p.developed then (s, false)
  else if !inlineTaken then (s.modShot w fun x => { x with dev := .inline }, false)
  else
    match offerJob s w .develop with
    | (s, true) => (s.modShot w fun x => { x with dev := .queued, reason := some .engineBusy }, false)
    | (s, false) => (s.modShot w fun x => { x with dev := .failed, reason := some .queueFull }, true)

/-- R30 to R32, R96: the record of window w is initialised for an admitted open, a context is bound, the reservation taken and
the cursor moved, with one write of cursor page line 1; a focus check made NONE is reported. R45 asks for the lines whose fields have
changed; the open writes every line that holds a field, also where its fields keep their FREE values (DESIGN CHOICE, log 24). A
status FAILED at the open has its histogram lines written too (R136). No rule orders the FOCUS CHECK of a check made NONE, which comes
before SHOT OPENED (R96), against the opening write's allocation; here it comes first (DESIGN CHOICE, log 14). The second part tells
whether a DEVELOP job was not taken. -/
def initShot (s : State) (w : Fin 64) (p : Profile) : State × Bool :=
  let before := s
  let inlineTaken := (inlineShot s).isSome
  let x := openedShot s p
  let range := stillRangeAtOpen s p x.snapshot
  let s := s.setShot w x
  let (s, jobRefused) := openDev s w p inlineTaken
  let s := bindContext s
    { window := w, next := 0, following := true, crc := crcInit, range := range,
      inlineFeed := decide ((s.shot w).dev = .inline),
      still := range.map fun z => { zone := z, sums := zeroProfiles } }
  let s := { s with table := { s.table with seqCounter := nextSeq s.table.seqCounter, lastOpened := w } }
  let s := mirror s w (if (s.shot w).dev = .failed then recordLines ++ histLines else recordLines)
  let s := publish (recomputeCursor (poolCounted before s)) 1
  match range with
  | some _ => (s, jobRefused)
  | none =>
    (recordCheck s w ((x.snapshot.map fun n => n.zone.val).getD 0) { state := .none, q := 0, conf := 0 } 0 .inline, jobRefused)

/-- R29: SHOT OPENED with the profile slot, the need and the development status set at open. -/
def shotOpened (s : State) (w : Fin 64) (p : Profile) (dev : DevStatus) : State :=
  hand s (shotNotice s w .shotOpened 0
    (byte1 (((s.shot w).copy.map fun c => c.slot.val).getD 0) ++ leBytes 2 p.need ++ byte1 dev.code))

/-! ### DISCARD -/

/-- R144: the verify context of window w is freed. -/
def freeVerify (s : State) (w : Fin 64) : State :=
  { s with verify := { s.verify with contexts := s.verify.contexts.map fun o => o.filter fun c => c.window ≠ w } }

/-- R39 step 5, R135: what becomes of the shot once it is out of the work it waited for. -/
def discardNow (s : State) (w : Fin 64) : State :=
  match (s.shot w).dev with
  | .inline =>
    let s := mirror (s.modShot w fun x => { x with state := .discarding }) w [0]
    if s.engine.activity = .inline w then s.setEngine { s.engine with stop := some w }
    else releaseShot (abandonInline s w) w .discarded
  | .replaying =>
    let s := mirror (s.modShot w fun x => { x with state := .discarding }) w [0]
    s.setEngine { s.engine with stop := some w }
  | _ => releaseShot s w .discarded

/-- R39: DISCARD of a CAPTURING or SEALED shot. The engine's choice, when the order has removed the head job, comes after the release
and its notice, which no rule orders (DESIGN CHOICE, log 14). -/
def discardShot (s : State) (w : Fin 64) : State :=
  let was := (s.shot w).state
  let s := refreshHead (s.setTetherQueue (withoutEntry s.tether.queue w))
  let s := freeVerify s w
  let s := if (s.shot w).dev = .queued then removeJob s w else s
  let s :=
    if was = .capturing then unbindContext (s.modShot w fun x => { x with timer := .stopped }) w else s
  let s := engineChoose (discardNow s w)
  if was = .capturing then capturingFell s else s

/-- R39: the order. A DISCARD that names a DISCARDING shot changes nothing. -/
def discardOrder (o : OrderRecord) (_ : List Byte) (s : State) : State × OrderStatus :=
  forShot o s fun w s => if (s.shot w).state = .discarding then (s, .done) else (discardShot s w, .done)

/-- DISCARD (R39). -/
def execDiscard (s : State) : Host.Outcome State Fault Refusal := runOrder s .discard discardOrder

/-! ### SEAL and the capture timer -/

/-- R36. -/
def sealOrderRule (o : OrderRecord) (_ : List Byte) (s : State) : State × OrderStatus :=
  forShot o s fun w s => if (s.shot w).state = .capturing then (sealShot s w .order, .done) else (s, .state)

/-- SEAL (R36). -/
def execSealOrder (s : State) : Host.Outcome State Fault Refusal := runOrder s .seal sealOrderRule

/-- CAPTURE_TIMEOUT (R34): the capture timer of the CAPTURING shot in window w has run out. -/
def execCaptureTimeout (w : Fin 64) (s : State) : Host.Outcome State Fault Refusal :=
  match (s.shot w).timer with
  | .stopped => .next s
  | .running d => .next (if (s.shot w).state = .capturing then sealShot (s.advanceTo d) w .timeout else s)

/-! ### PROTECT and UNPROTECT -/

/-- R41: the protect flag of a CAPTURING or SEALED shot takes a value. -/
def protectRule (flag : Bool) (o : OrderRecord) (_ : List Byte) (s : State) : State × OrderStatus :=
  forShot o s fun w s =>
    if (s.shot w).state = .discarding then (s, .state)
    else
      let s := if (s.shot w).protect == flag then s else mirror (s.modShot w fun x => { x with protect := flag }) w [1]
      (if flag then s else releaseCheck s w, .done)

/-- PROTECT (R41). -/
def execProtect (s : State) : Host.Outcome State Fault Refusal := runOrder s .protect (protectRule true)

/-- UNPROTECT (R41). -/
def execUnprotect (s : State) : Host.Outcome State Fault Refusal := runOrder s .unprotect (protectRule false)

/-! ### Profiles -/

/-- R27: SET PROFILE. -/
def setProfileRule (o : OrderRecord) (img : List Byte) (s : State) : State × OrderStatus :=
  let n := field o.params 0 1
  if h : n < 4 then
    match decodeProfile img with
    | none => (s, .badParam)
    | some p =>
      let s := { s with table := { s.table with profiles := s.table.profiles.set n (some p) } }
      (if s.table.active.val = n then refreshCursor s else s, .done)
  else (s, .badParam)

/-- SET_PROFILE (R27). -/
def execSetProfile (s : State) : Host.Outcome State Fault Refusal := runOrder s .setProfile setProfileRule

/-- R28: SELECT PROFILE. -/
def selectProfileRule (o : OrderRecord) (_ : List Byte) (s : State) : State × OrderStatus :=
  let n := field o.params 0 1
  if h : n < 4 then
    if (s.table.profiles.get ⟨n, h⟩).isSome then
      (refreshCursor { s with table := { s.table with active := ⟨n, h⟩ } }, .done)
    else (s, .badParam)
  else (s, .badParam)

/-- SELECT_PROFILE (R28). -/
def execSelectProfile (s : State) : Host.Outcome State Fault Refusal := runOrder s .selectProfile selectProfileRule

/-! ### SET POOL -/

/-- Two ranges of addresses, each a start and a length, overlap. -/
def overlaps (a la b lb : Nat) : Bool := decide (a < b + lb ∧ b < a + la)

/-- The bases of the declared view buffers (R69). -/
def declaredBases (f : FocusSetup) : List Nat := f.bases.toList.take f.bufferCount

/-- R69: length of a view buffer. -/
def bufferLength (f : FocusSetup) : Nat := f.width * f.height * 2

/-- R20 step 1: the parameters of SET POOL. -/
def poolParamsValid (s : State) (first count low high : Nat) : Bool :=
  decide (1 ≤ count ∧ count ≤ 8192 ∧ first + count ≤ installedGiB s.memSize * 1024) &&
  !decide (first ≤ controlBase s.caSel / Config.granule ∧ controlBase s.caSel / Config.granule < first + count) &&
  (match s.focus.setup with
    | none => true
    | some f => (declaredBases f).all fun b =>
        !overlaps (first * Config.granule) (count * Config.granule) b (bufferLength f)) &&
  decide (low ≤ high ∧ high ≤ count)

/-- R20, R21: SET POOL with the marks-only flag clear. -/
def setPoolRule (o : OrderRecord) (_ : List Byte) (s : State) : State × OrderStatus :=
  let first := field o.params 0 2
  let count := field o.params 2 2
  let low := field o.params 4 2
  let high := field o.params 6 2
  if !poolParamsValid s first count low high then (s, .badParam)
  else if s.shots.toList.any fun x => x.state ≠ .free then (s, .state)
  else
    let t := { s with pool := { s.pool with
      first := first, size := count, free := (List.range count).map fun i => first + i, low := low, high := high } }
    (refreshCursor (evalArmed (publishPool s t)), .done)

/-- R22: SET POOL with the marks-only flag set. -/
def setMarksRule (o : OrderRecord) (_ : List Byte) (s : State) : State × OrderStatus :=
  let low := field o.params 4 2
  let high := field o.params 6 2
  if high < low ∨ s.pool.size < high then (s, .badParam)
  else (evalArmed { s with pool := { s.pool with low := low, high := high } }, .done)

/-- The marks-only flag of a SET POOL record (R20). -/
def marksOnly (o : OrderRecord) : Bool := flagAt o.params 8

/-- SET_POOL (R20, R21): the SET POOL order handed over has the marks-only flag clear. -/
def execSetPool (s : State) : Host.Outcome State Fault Refusal :=
  match dispatchedOrder s .setPool with
  | none => .next s
  | some (o, img) => if marksOnly o then .next s else .next (finishOrder (setPoolRule o img s).1 o (setPoolRule o img s).2)

/-- SET_POOL_MARKS_ONLY (R22): the SET POOL order handed over has the marks-only flag set. -/
def execSetPoolMarksOnly (s : State) : Host.Outcome State Fault Refusal :=
  match dispatchedOrder s .setPool with
  | none => .next s
  | some (o, img) =>
    if marksOnly o then .next (finishOrder (setMarksRule o img s).1 o (setMarksRule o img s).2) else .next s

end Sys2Proof.Machine
end

