-- ==== Sys2Proof/Machine/FocusUnit.lean ====
section
/-! DEFINITION. The view tap (R69 to R75) and the Focus Unit's work on views (chapter 5): SET FOCUS (R79, R80), FOCUS START
(R94), and the completion of a measurement with zone records, primary zone, notices and target (R88 to R93, R95). -/

namespace Sys2Proof.Machine

/-! ### Banks -/

/-- The other bank. -/
def BankId.other : BankId → BankId
  | .a => .b
  | .b => .a

/-- A bank of the Focus Unit. -/
def State.bank (s : State) : BankId → Bank
  | .a => s.focus.bankA
  | .b => s.focus.bankB

/-- The state with a bank replaced. -/
def State.setBank (s : State) (i : BankId) (k : Bank) : State :=
  match i with
  | .a => { s with focus := { s.focus with bankA := k } }
  | .b => { s with focus := { s.focus with bankB := k } }

/-- A count of 32 bits that wraps (R69). -/
def wrap32 (n : Nat) : Nat := n % 2 ^ 32

/-- R69: the views-skipped count rises by n; line 8 follows with the change that it is part of. -/
def raiseSkipped (s : State) (n : Nat) : State :=
  { s with view := { s.view with skipped := wrap32 (s.view.skipped + n) } }

/-- R70 step 1, R71, R75: the followed view is dropped: its bank is cleared and IDLE, and the views-skipped count rises. -/
def dropView (s : State) : State :=
  match s.view.followed with
  | none => s
  | some v => raiseSkipped { s.setBank v.bank idleBank with view := { s.view with followed := none } } 1

/-- R74, R92: the position of the latest lens report. -/
def reportedPosition (s : State) : Option Nat := s.lens.report.map PositionReport.position

/-! ### The view tap -/

/-- R72, R73: the bank is handed to measurement: FULL while the other bank is MEASURING, otherwise MEASURING under the setup in
force. -/
def handOver (s : State) (i : BankId) : State :=
  if (s.bank i.other).state = .measuring then s.setBank i { s.bank i with state := .full }
  else s.setBank i { s.bank i with state := .measuring, setup := s.focus.setup, gridChanged := false }

/-- R71, R72, R74: the next line of the followed view in order. -/
def viewLine (s : State) (f : FocusSetup) (v : Followed) (l : Nat) (data : List Byte) : State :=
  let k := s.bank v.bank
  let k := if gridLine f l then { k with sums := addViewLine f l data k.sums } else k
  if l = s.view.lastGridLine then
    requestStatus (handOver ({ s with view := { s.view with followed := none } }.setBank v.bank
      { k with atLast := reportedPosition s }) v.bank)
  else { s with view := { s.view with followed := some { v with next := l + 1 } } }.setBank v.bank k

/-- R70 step 3: an IDLE bank, A before B. -/
def idleBankOf (s : State) : Option BankId :=
  if s.focus.bankA.state = .idle then some .a else if s.focus.bankB.state = .idle then some .b else none

/-- R70: a view start in a buffer. -/
def viewStart (s : State) (f : FocusSetup) (buffer : Nat) (data : List Byte) : State :=
  let s := dropView s
  let s := { s with view := { s.view with sequence := wrap32 (s.view.sequence + 1) } }
  match idleBankOf s with
  | none => publish (raiseSkipped s 1) 8
  | some i =>
    let s := publish (s.setBank i
      { idleBank with state := .accumulating, view := s.view.sequence, atStart := reportedPosition s }) 8
    viewLine (requestStatus s) f { buffer := buffer, next := 0, bank := i } 0 data

/-- R70, R71: a CAPTURE write to a line of a declared buffer. -/
def viewReceive (s : State) (f : FocusSetup) (buffer l : Nat) (full : Bool) (data : List Byte) : State :=
  if full && decide (l = 0) then viewStart s f buffer data
  else
    match s.view.followed with
    | none => s
    | some v =>
      if v.buffer ≠ buffer then s
      else if full && decide (l = v.next) then viewLine s f v l data
      else publish (dropView s) 8

/-! ### SET FOCUS -/

/-- R79: no two of the buffers overlap. -/
def buffersApart (len : Nat) : List Nat → Bool
  | [] => true
  | b :: bs => bs.all (fun c => !overlaps b len c len) && buffersApart len bs

/-- R79: the buffers lie in installed DRAM, off the control area, off the pool and off each other. -/
def buffersFit (s : State) (f : FocusSetup) : Bool :=
  (declaredBases f).all (fun b =>
    decide (b + bufferLength f ≤ installedBytes s.memSize) &&
    !overlaps b (bufferLength f) (controlBase s.caSel) Config.granule &&
    (s.pool.size == 0 ||
      !overlaps b (bufferLength f) (s.pool.first * Config.granule) (s.pool.size * Config.granule))) &&
  buffersApart (bufferLength f) (declaredBases f)

/-- R80: replacing the old setup by the new one is a grid change. -/
def gridChange (old : Option FocusSetup) (f : FocusSetup) : Bool :=
  match old with
  | none => true
  | some g => decide (f.width ≠ g.width ∨ f.height ≠ g.height ∨ f.grid ≠ g.grid)

/-- R75: the followed view is dropped and a FULL bank cleared, each raising the views-skipped count. -/
def clearViews (s : State) : State :=
  let t := dropView s
  let t := if t.focus.bankA.state = .full then raiseSkipped (t.setBank .a idleBank) 1 else t
  let t := if t.focus.bankB.state = .full then raiseSkipped (t.setBank .b idleBank) 1 else t
  if t.view.skipped = s.view.skipped then t else publish t 8

/-- R93: a MEASURING bank remembers that a grid change was taken. -/
def Bank.noteGridChange (k : Bank) : Bank :=
  if k.state = .measuring then { k with gridChanged := true } else k

/-- R80: the zone records and the primary zone at a grid change, written back in ascending order of zone number, which the rule
leaves open (DESIGN CHOICE, log 14). -/
def resetZones (s : State) : State :=
  let s := { s with focus := { s.focus with
    zones := .replicate 63 noDataZone
    primary := none
    bankA := s.focus.bankA.noteGridChange
    bankB := s.focus.bankB.noteGridChange } }
  (List.finRange 63).foldl (fun s z => emitLine s (.zone z)) s

/-- R75, R80: an accepted setup. Where views are dropped at a grid change, cursor page line 8 is inserted before the zone records,
which no rule orders (DESIGN CHOICE, log 14). -/
def acceptFocus (s : State) (f : FocusSetup) : State :=
  let change := gridChange s.focus.setup f
  let s := clearViews s
  let s := { s with
    focus := { s.focus with setup := some f }
    view := { s.view with lastGridLine := lastGridLineOf f } }
  if change then resetZones s else s

/-- R79, R80: SET FOCUS. -/
def setFocusRule (_ : OrderRecord) (img : List Byte) (s : State) : State × OrderStatus :=
  match decodeFocus img with
  | none => (s, .badParam)
  | some f => if buffersFit s f then (acceptFocus s f, .done) else (s, .badParam)

/-- SET_FOCUS (R79, R80). -/
def execSetFocus (s : State) : Host.Outcome State Fault Refusal := runOrder s .setFocus setFocusRule

/-! ### FOCUS START -/

/-- Follow mode codes (11.2). -/
def followModeOf (n : Nat) : Option FollowMode :=
  match n with
  | 0 => some .off
  | 1 => some .single
  | 2 => some .continuous
  | _ => none

/-- R94: the primary zone is cleared; the marks are cleared in the records and go out with their next write-back. -/
def clearPrimary (f : FocusUnit) : FocusUnit :=
  { f with primary := none, zones := f.zones.map fun z => { z with primary := false } }

/-- R94: FOCUS START. -/
def focusStartRule (o : OrderRecord) (_ : List Byte) (s : State) : State × OrderStatus :=
  match followModeOf (field o.params 0 1) with
  | none => (s, .badParam)
  | some m =>
    let set := BitVec.ofNat 64 (field o.params 2 8)
    if set.getLsbD 63 then (s, .badParam)
    else
      let f := if flagAt o.params 1 then clearPrimary s.focus else s.focus
      ({ s with focus := { f with
          mode := m, candidates := set, follow := if m = .off then .idle else .following } }, .done)

/-- FOCUS_START (R94). -/
def execFocusStart (s : State) : Host.Outcome State Fault Refusal := runOrder s .focusStart focusStartRule

/-! ### Completion of a measurement -/

/-- R92: the exposure position of a bank's view. -/
def exposurePosition (k : Bank) : Option Nat :=
  match k.atStart, k.atLast with
  | some a, some b => some ((a + b) / 2)
  | _, _ => none

/-- R88, R89: the new record of a zone of the grid; its primary mark is settled with the primary zone. -/
def measuredZone (f : FocusSetup) (k : Bank) (old : ZoneRecord) (p : Profiles) : ZoneRecord :=
  let m := measure p f.search f.cmin f.kz
  { state := zoneStateOf f old.state m, q := m.q, conf := m.conf, ratio := m.ratio, steps := m.steps, beyond := m.beyond,
    exposure := exposurePosition k, view := k.view, primary := old.primary }

/-- R89: the records of all zones after the measurement of bank k under setup f. -/
def measuredZones (f : FocusSetup) (k : Bank) (old : Vector ZoneRecord 63) : Vector ZoneRecord 63 :=
  Vector.ofFn fun z => if z.val < f.grid.zones then measuredZone f k (old.get z) (k.sums.get z) else old.get z

/-- R91: the candidates, in ascending order: zones of the grid and of the candidate set whose new state is IN, NEAR or FAR. -/
def candidateZones (f : FocusSetup) (set : BitVec 64) (zones : Vector ZoneRecord 63) : List (Fin 63) :=
  (List.finRange 63).filter fun z =>
    decide (z.val < f.grid.zones) && set.getLsbD z.val &&
    (decide ((zones.get z).state = .inFocus) || decide ((zones.get z).state = .near) ||
      decide ((zones.get z).state = .far))

/-- R91: the best zone, the lowest-numbered candidate with the largest q. -/
def bestZone (zones : Vector ZoneRecord 63) : List (Fin 63) → Option (Fin 63)
  | [] => none
  | c :: cs => some (cs.foldl (fun best z => if (zones.get best).q < (zones.get z).q then z else best) c)

/-- R91: the primary zone after a measurement. -/
def choosePrimary (f : FocusSetup) (set : BitVec 64) (zones : Vector ZoneRecord 63) (before : Option (Fin 63)) :
    Option (Fin 63) :=
  let cs := candidateZones f set zones
  match bestZone zones cs with
  | none => before
  | some best =>
    match before with
    | none => some best
    | some p =>
      if cs.contains p && decide ((zones.get best).q - (zones.get p).q ≤ f.stick) then some p else some best

/-- R89: the primary mark is set in the record of the primary zone and clear in all the others. -/
def markPrimary (primary : Option (Fin 63)) (zones : Vector ZoneRecord 63) : Vector ZoneRecord 63 :=
  Vector.ofFn fun z => { zones.get z with primary := decide (primary = some z) }

/-- R89: the records written back: every zone of the grid, and a zone outside it whose primary mark has changed. -/
def zonesWritten (f : FocusSetup) (old new : Vector ZoneRecord 63) : List (Fin 63) :=
  (List.finRange 63).filter fun z =>
    decide (z.val < f.grid.zones) || ((old.get z).primary != (new.get z).primary)

/-- R90: a change of state is reported under a change notice mode. -/
def ChangeMode.reports (m : ChangeMode) (old new : ZoneState) : Bool :=
  match m with
  | .off => false
  | .enterIn => decide (new = .inFocus) && decide (old ≠ .inFocus)
  | .leaveIn => decide (old = .inFocus) && decide (new ≠ .inFocus)
  | .anyChange => decide (old ≠ new)

/-- R90: the FOCUS CHANGE notice of a zone. -/
def focusChangeNotice (z : Fin 63) (old : ZoneState) (r : ZoneRecord) : Notice :=
  plainNotice .focusChange z.val
    (byte1 old.code ++ byte1 r.state.code ++ signedBytes r.q ++ byte1 r.conf ++ leBytes 4 r.view)

/-- R90: the notices of a measurement, in ascending order of zone number. -/
def focusChanges (f : FocusSetup) (old new : Vector ZoneRecord 63) : List Notice :=
  ((List.finRange 63).filter fun z =>
    decide (z.val < f.grid.zones) && (f.modes.get z).reports (old.get z).state (new.get z).state).map fun z =>
      focusChangeNotice z (old.get z).state (new.get z)

/-- R95: the lens target, the exposure position plus the steps, held within the lens's range. -/
def clampTarget (info : LensInfo) (t : Int) : Nat := min (max t info.minimum) info.maximum |>.toNat

/-- R95: the target is placed when it is at least the deadband away from the last position report. -/
def formTarget (s : State) (f : FocusSetup) (exposure : Nat) (z : ZoneRecord) : State :=
  match s.lens.info, s.lens.report with
  | some info, some r =>
    let t := clampTarget info (exposure + z.steps)
    if s.lens.state = .ready && decide (f.deadband ≤ absDiff t r.position) then placeTarget s t else s
  | _, _ => s

/-- R95: at a completion that found a candidate, with p the primary zone: SINGLE mode locks on IN, otherwise a target is formed
when its conditions hold. -/
def follow (s : State) (f : FocusSetup) (k : Bank) (p : Fin 63) : State :=
  match exposurePosition k with
  | none => s
  | some e =>
    if s.focus.follow ≠ .following then s
    else if s.focus.mode = .single && decide ((s.focus.zones.get p).state = .inFocus) then
      { s with focus := { s.focus with follow := .locked } }
    else formTarget s f e (s.focus.zones.get p)

/-- R93: the results of bank k's measurement under setup f stand. The zone records are inserted in ascending order of zone number,
which R89 leaves open (DESIGN CHOICE, log 14). -/
def resultsStand (s : State) (f : FocusSetup) (k : Bank) : State :=
  let old := s.focus.zones
  let measured := measuredZones f k old
  let found := !(candidateZones f s.focus.candidates measured).isEmpty
  let primary := choosePrimary f s.focus.candidates measured s.focus.primary
  let new := markPrimary primary measured
  let s := { s with focus := { s.focus with zones := new, primary := primary } }
  let s := (zonesWritten f old new).foldl (fun s z => emitLine s (.zone z)) s
  let s := (focusChanges f old new).foldl hand s
  match primary with
  | none => s
  | some p => if found then follow s f k p else s

/-- R93: the results of the MEASURING bank stand, or are discarded after a grid change. -/
def completeMeasurement (s : State) (k : Bank) : State :=
  match k.setup with
  | none => publish (raiseSkipped s 1) 8
  | some f => if k.gridChanged then publish (raiseSkipped s 1) 8 else resultsStand s f k

/-- R73: the measured bank becomes IDLE, and a FULL other bank begins to be measured under the setup in force. -/
def nextMeasurement (s : State) (i : BankId) : State :=
  let s := s.setBank i idleBank
  let k := s.bank i.other
  if k.state = .full then
    s.setBank i.other { k with state := .measuring, setup := s.focus.setup, gridChanged := false }
  else s

/-- The MEASURING bank. -/
def measuringBank (s : State) : Option BankId :=
  if s.focus.bankA.state = .measuring then some .a
  else if s.focus.bankB.state = .measuring then some .b
  else none

/-- MEASUREMENT_COMPLETE (R93). -/
def execMeasurementComplete (s : State) : Host.Outcome State Fault Refusal :=
  match measuringBank s with
  | none => .next s
  | some i => .next (nextMeasurement (completeMeasurement s (s.bank i)) i)

end Sys2Proof.Machine
end

