-- ==== Sys2Proof/Machine/Verify.lean ====
section
/-! DEFINITION. Card delivery (chapter 8): counting card reads (R140), the verify contexts (R141 to R144), CARD DONE (R146) and
CARD RETRY (R147). -/

namespace Sys2Proof.Machine

/-! ### Contexts -/

/-- R141: the context bound to the shot in window w. -/
def verifyOf (s : State) (w : Fin 64) : Option VerifyContext :=
  (s.verify.contexts.toList.find? fun c => (c.map VerifyContext.window) = some w).join

/-- The contexts of window w changed. -/
def modVerify (s : State) (w : Fin 64) (f : VerifyContext → VerifyContext) : State :=
  { s with verify := { s.verify with
      contexts := s.verify.contexts.map fun o => o.map fun c => if c.window = w then f c else c } }

/-- R141: the place of a free context. R141 does not say which of several is bound; the model takes the lowest (DESIGN CHOICE,
log 25). -/
def freeContext (s : State) : Option Nat := s.verify.contexts.toList.findIdx? Option.isNone

/-- The verify status of window w takes a value. -/
def setVerify (s : State) (w : Fin 64) (v : VerifyStatus) : State := s.modShot w fun x => { x with verify := v }

/-- R142: the accepted lines whose data has returned are taken in, in the order of their acceptance. -/
def takeLines (r : BitVec 32) : List AcceptedLine → BitVec 32 × List AcceptedLine
  | [] => (r, [])
  | a :: rest =>
    match a.data with
    | none => (r, a :: rest)
    | some d => takeLines (crcBytes r d) rest

/-- R142: a context with its returned lines taken in. -/
def VerifyContext.takeIn (c : VerifyContext) : VerifyContext :=
  { c with crc := (takeLines c.crc c.accepted).1, accepted := (takeLines c.crc c.accepted).2 }

/-- R143: the data of the final line has been taken in. -/
def VerifyContext.complete (c : VerifyContext) (x : Shot) : Bool :=
  c.accepted.isEmpty && decide (c.next * Config.line = x.rawLength)

/-- R148: the fields that VERIFIED and VERIFY MISMATCH share: the CRC with its origin. -/
def crcFields (v : BitVec 32) (o : Origin) : List Byte := leBytes 4 v.toNat ++ byte1 o.code

/-- R143, R148: the pass of window w is complete with the given value. -/
def completePass (s : State) (w : Fin 64) (value : BitVec 32) : State :=
  match (s.shot w).crc with
  | none => s
  | some (v, o) =>
    if value = v then
      let s := mirror (setVerify s w .matched) w [5]
      freeVerify (hand s (shotNotice s w .verified 0 (crcFields v o ++ leBytes 4 (s.shot w).cardBytes))) w
    else
      let s := mirror ((setVerify s w .mismatch).modShot w fun x => { x with card := .failed }) w [5]
      let s := hand s (shotNotice s w .verifyMismatch 0
        (crcFields v o ++ leBytes 4 value.toNat ++ leBytes 4 (s.shot w).cardBytes))
      releaseCheck (freeVerify s w) w

/-- R142, R143: the context of window w takes in what has returned and completes its pass when it can. -/
def advanceVerify (s : State) (w : Fin 64) : State :=
  let s := modVerify s w VerifyContext.takeIn
  match verifyOf s w with
  | none => s
  | some c => if c.complete (s.shot w) then completePass s w (crcFinish c.crc) else s

/-- R142: the data of an accepted line of a pass is given to its context. -/
def giveLine (s : State) (pass line : Nat) (data : List Byte) : State :=
  match (s.verify.contexts.toList.find? fun c => (c.map VerifyContext.pass) = some pass).join with
  | none => s
  | some c =>
    advanceVerify (modVerify s c.window fun c => { c with
      accepted := c.accepted.map fun a => if a.line = line then { a with data := some data } else a }) c.window

/-! ### Card reads -/

/-- R45: a byte count is written back when it crosses a multiple of 2^20 or reaches the length. -/
def countWritten (old new length : Nat) : Bool :=
  decide (old / 2 ^ 20 ≠ new / 2 ^ 20) || (decide (old < length) && decide (length ≤ new))

/-- R141: an offset-0 card read while READING: a context is started, or the verify status becomes UNVERIFIED. -/
def startPass (s : State) (w : Fin 64) : State :=
  if (verifyOf s w).isSome then s
  else
    match (s.shot w).crc, freeContext s with
    | some _, some i =>
      setVerify { s with verify := {
        contexts := s.verify.contexts.setIfInBounds i (some
          { window := w, seq := (s.shot w).seq, pass := s.verify.nextPass, next := 0, crc := crcInit, accepted := [] })
        nextPass := s.verify.nextPass + 1 } } w .running
    | _, _ => setVerify s w .unverified

/-- R142: a card read of line l is accepted by the shot's context when it is the next expected one. The pass that accepts it is
given with the state. -/
def acceptLine (s : State) (w : Fin 64) (l : Nat) : State × Option (Nat × Nat) :=
  match verifyOf s w with
  | none => (s, none)
  | some c =>
    if c.next = l then
      (modVerify s w fun c => { c with next := l + 1, accepted := c.accepted ++ [{ line := l, data := none }] },
        some (c.pass, l))
    else (s, none)

/-- R140: the card read is counted, and moves PENDING to READING. -/
def countCardRead (s : State) (w : Fin 64) : State :=
  s.modShot w fun x =>
    { x with cardBytes := hold32 (x.cardBytes + 64), card := if x.card = .pending then .reading else x.card }

/-- R140 to R142: a served CARD read of shot space at window offset o is taken. -/
def cardRead (s : State) (w : Fin 64) (o : Nat) : State × Option (Nat × Nat) :=
  let old := s.shot w
  let s := countCardRead s w
  let reading := decide ((s.shot w).card = .reading)
  let s := if reading && decide (o = 0) then startPass s w else s
  let (s, token) := if reading then acceptLine s w (o / Config.line) else (s, none)
  let x := s.shot w
  let changed := decide (old.card ≠ x.card) || decide (old.verify ≠ x.verify)
  let s := if changed || countWritten old.cardBytes x.cardBytes x.rawLength then mirror s w [5] else s
  (if old.card ≠ x.card then releaseCheck s w else s, token)

/-! ### The card orders -/

/-- R146: CARD DONE. -/
def cardDoneRule (o : OrderRecord) (_ : List Byte) (s : State) : State × OrderStatus :=
  forShot o s fun w s =>
    let x := s.shot w
    if x.state ≠ .sealed || (x.card ≠ .reading && x.card ≠ .failed) then (s, .state)
    else if x.cardBytes < x.rawLength then (s, .tooEarly)
    else if x.card = .failed && !flagAt o.params 0 then (s, .verifyFailed)
    else
      let s := if (verifyOf s w).isSome then setVerify (freeVerify s w) w .unverified else s
      (releaseCheck (mirror (s.modShot w fun x => { x with card := .done }) w [5]) w, .done)

/-- CARD_DONE (R146). -/
def execCardDone (s : State) : Host.Outcome State Fault Refusal := runOrder s .cardDone cardDoneRule

/-- R147: CARD RETRY. -/
def cardRetryRule (o : OrderRecord) (_ : List Byte) (s : State) : State × OrderStatus :=
  forShot o s fun w s =>
    let x := s.shot w
    if x.state ≠ .sealed || (x.card ≠ .reading && x.card ≠ .failed) then (s, .state)
    else
      let s := (freeVerify s w).modShot w fun x => { x with card := .pending, cardBytes := 0, verify := .none }
      (releaseCheck (mirror s w [5]) w, .done)

/-- CARD_RETRY (R147). -/
def execCardRetry (s : State) : Host.Outcome State Fault Refusal := runOrder s .cardRetry cardRetryRule

end Sys2Proof.Machine
end

