-- ==== Sys2Proof/Machine/TetherOrders.lean ====
section
/-! DEFINITION. Tether reads (R157, R158) and the orders about the tether: RATE (R42, R161), SET SELECTION (R151), TETHER DONE
(R159, R160) and SEND NOW (R162). -/

namespace Sys2Proof.Machine

/-! ### Reads -/

/-- R157: a served TETHER read is counted. -/
def countTetherRead (x : Shot) (preview : Bool) : Shot :=
  if preview then { x with tetherPreview := hold32 (x.tetherPreview + 64) }
  else { x with tetherRaw := hold32 (x.tetherRaw + 64) }

/-- R45: the count that a read raised is written back. -/
def tetherCountWritten (old new : Shot) (preview : Bool) : Bool :=
  if preview then countWritten old.tetherPreview new.tetherPreview new.previewLength
  else countWritten old.tetherRaw new.tetherRaw new.rawLength

/-- R157, R158: a served TETHER read of shot space or preview space is taken. -/
def tetherRead (s : State) (w : Fin 64) (preview : Bool) : State :=
  let old := s.shot w
  let starts := decide (old.tether = .queued) && decide (sendingCount s < Config.sendingLimit)
  let new := countTetherRead (if starts then { old with tether := .sending } else old) preview
  let s := s.setShot w new
  let s := if starts || tetherCountWritten old new preview then mirror s w [5] else s
  if starts then releaseCheck (refreshHead s) w else s

/-! ### RATE -/

/-- R161: a QUEUED entry without the forced mark under the table as it stands. -/
def rateQueued (s : State) (w : Fin 64) (e : TetherEntry) : State :=
  let x := s.shot w
  match selected s x with
  | none =>
    let s := mirror (s.modShot w fun x => { x with tether := .notSelected, sendWhat := none }) w [5]
    refreshHead (s.setTetherQueue (withoutEntry s.tether.queue w))
  | some send =>
    let send := degrade x send
    let s := if x.sendWhat = some send then s else mirror (s.modShot w fun x => { x with sendWhat := some send }) w [5]
    let e' := { e with send := send, urgent := x.urgent, ready := readyFlag x send }
    refreshHead (s.setTetherQueue
      (if e.urgent = x.urgent then s.tether.queue.map fun q => if q.window = w then e' else q
        else insertEntry (withoutEntry s.tether.queue w) e'))

/-- R161: what the Tether Queue does at a RATE on the SEALED shot in window w. -/
def rateTether (s : State) (w : Fin 64) : State :=
  let x := s.shot w
  let t :=
    match x.tether with
    | .undecided => evaluateUndecided s w
    | .notSelected =>
      match selected s x with
      | none => s
      | some send => joinQueue s w (degrade x send) false
    | .queued =>
      match tetherEntry s w with
      | some e => if e.forced then s else rateQueued s w e
      | none => s
    | _ => s
  let t := refreshHead t
  if (t.shot w).tether = x.tether then t else releaseCheck t w

/-- R42: rating, story key and urgent flag are set. -/
def rateRecord (s : State) (w : Fin 64) (rating story : Nat) (urgent : Bool) : State :=
  let x := s.shot w
  if x.rating = rating && x.storyKey = story && x.urgent = urgent then s
  else mirror (s.modShot w fun x => { x with rating := rating, storyKey := story, urgent := urgent }) w [1]

/-- R42, R161: RATE. A rating above 5 is recorded as 5. -/
def rateRule (o : OrderRecord) (_ : List Byte) (s : State) : State × OrderStatus :=
  forShot o s fun w s =>
    if (s.shot w).state = .discarding then (s, .state)
    else
      let s := rateRecord s w (min (field o.params 0 1) 5) (field o.params 1 2) (flagAt o.params 3)
      (if (s.shot w).state = .sealed then rateTether s w else s, .done)

/-- RATE (R42, R161). -/
def execRate (s : State) : Host.Outcome State Fault Refusal := runOrder s .rate rateRule

/-! ### SET SELECTION -/

/-- R151: the SEALED, UNDECIDED shots in ascending order of shot sequence number. -/
def undecidedShots (s : State) : List (Fin 64) :=
  ((List.finRange 64).filter fun w =>
    decide ((s.shot w).state = .sealed) && decide ((s.shot w).tether = .undecided)).insertionSort
      fun a b => (s.shot a).seq ≤ (s.shot b).seq

/-- R151: SET SELECTION. -/
def setSelectionRule (_ : OrderRecord) (img : List Byte) (s : State) : State × OrderStatus :=
  match decodeRules img with
  | none => (s, .badParam)
  | some rules =>
    ((undecidedShots s).foldl (fun s w => releaseCheck (evaluateUndecided s w) w)
      { s with tether := { s.tether with rules := rules } }, .done)

/-- SET_SELECTION (R151). -/
def execSetSelection (s : State) : Host.Outcome State Fault Refusal := runOrder s .setSelection setSelectionRule

/-! ### TETHER DONE -/

/-- The part a TETHER DONE names (R159). -/
inductive TetherPart where
  | preview | raw | all
  deriving DecidableEq, Repr

/-- Part codes (11.2). -/
def tetherPartOf (n : Nat) : Option TetherPart :=
  match n with
  | 0 => some .preview
  | 1 => some .raw
  | 2 => some .all
  | _ => none

/-- Outcome codes (11.2): the tether status that the outcome gives. -/
def tetherOutcomeOf (n : Nat) : Option TetherStatus :=
  match n with
  | 0 => some .sent
  | 1 => some .abandoned
  | _ => none

/-- R159 step 3: the entry carries the part now. -/
def TetherPart.carriedBy (p : TetherPart) (send : SendWhat) : Bool :=
  match p with
  | .preview => send.previewFirst
  | .raw => decide (send = .raw)
  | .all => true

/-- R159 step 4: the order ends the preview part. -/
def TetherPart.endsPreview (p : TetherPart) (send : SendWhat) : Bool :=
  match p with
  | .preview => true
  | .raw => false
  | .all => send.previewFirst

/-- R159 step 4: the order ends the raw part. -/
def TetherPart.endsRaw (p : TetherPart) (send : SendWhat) : Bool :=
  match p with
  | .preview => false
  | .raw => true
  | .all => decide (send ≠ .preview)

/-- R159 step 4: every part that the order ends is covered. -/
def tetherCovered (x : Shot) (p : TetherPart) (send : SendWhat) : Bool :=
  (!p.endsPreview send || decide (x.previewLength ≤ x.tetherPreview)) &&
  (!p.endsRaw send || decide (x.rawLength ≤ x.tetherRaw))

/-- R160, first case: the preview part of a PREVIEW-THEN-RAW entry is done. The entry moves to the end of the class it is in, also
when a RATE has changed the urgent flag while it was SENDING: R160 and the law of R154 say that it moves within its class
(DEDUCED, log 26). -/
def previewPartDone (s : State) (w : Fin 64) : State :=
  let s := mirror (s.modShot w fun x => { x with tether := .queued, sendWhat := some .raw }) w [5]
  match tetherEntry s w with
  | none => refreshHead s
  | some e =>
    refreshHead (s.setTetherQueue
      (insertEntry (withoutEntry s.tether.queue w) { e with send := .raw, ready := readyFlag (s.shot w) .raw }))

/-- R160, second case: the entry leaves with the outcome. -/
def entryDone (s : State) (w : Fin 64) (outcome : TetherStatus) : State :=
  let s := mirror (s.modShot w fun x => { x with tether := outcome, sendWhat := none }) w [5]
  refreshHead (s.setTetherQueue (withoutEntry s.tether.queue w))

/-- R159, R160: TETHER DONE. -/
def tetherDoneRule (o : OrderRecord) (_ : List Byte) (s : State) : State × OrderStatus :=
  forShot o s fun w s =>
    let x := s.shot w
    match tetherPartOf (field o.params 0 1), tetherOutcomeOf (field o.params 1 1) with
    | some p, some outcome =>
      if x.state ≠ .sealed || (x.tether ≠ .queued && x.tether ≠ .sending) then (s, .state)
      else
        match x.sendWhat with
        | none => (s, .state)
        | some send =>
          if !p.carriedBy send then (s, .state)
          else if outcome = .sent && !tetherCovered x p send then (s, .tooEarly)
          else
            let t := if p = .preview && send = .previewThenRaw then previewPartDone s w else entryDone s w outcome
            (if (t.shot w).tether = x.tether then t else releaseCheck t w, .done)
    | _, _ => (s, .badParam)

/-- TETHER_DONE (R159, R160). -/
def execTetherDone (s : State) : Host.Outcome State Fault Refusal := runOrder s .tetherDone tetherDoneRule

/-! ### SEND NOW -/

/-- Send-what codes that SEND NOW takes (R162). -/
def sendWhatOf (n : Nat) : Option SendWhat :=
  match n with
  | 1 => some .preview
  | 2 => some .raw
  | 3 => some .previewThenRaw
  | _ => none

/-- R162: SEND NOW. -/
def sendNowRule (o : OrderRecord) (_ : List Byte) (s : State) : State × OrderStatus :=
  forShot o s fun w s =>
    let x := s.shot w
    match sendWhatOf (field o.params 0 1) with
    | none => (s, .badParam)
    | some send =>
      if x.state ≠ .sealed || (x.tether ≠ .notSelected && x.tether ≠ .sent && x.tether ≠ .abandoned) then (s, .state)
      else (releaseCheck (joinQueue s w (degrade x send) true) w, .done)

/-- SEND_NOW (R162). -/
def execSendNow (s : State) : Host.Outcome State Fault Refusal := runOrder s .sendNow sendNowRule

end Sys2Proof.Machine
end

