-- ==== Sys2Proof/Machine/LinkPort.lean ====
section
/-! DEFINITION. The Link Port (chapter 3) and the Window Map's checks (chapter 1): arrival (R48), taking a write and a read (R50
with R3 to R11, R29, R34, R35, R51 to R53), responses (R54) and link reset (R58). -/

namespace Sys2Proof.Machine

/-! ### Arrival -/

/-- REQUEST_ARRIVES (R48): with all 32 slots occupied the request is discarded. -/
def execRequestArrives (r : Request) (s : State) : Host.Outcome State Fault Refusal :=
  if !r.wf then .refused .illFormed
  else if Config.linkSlots ≤ slotsUsed s then .next s
  else .next { s with link := { s.link with waiting := s.link.waiting ++ [r], credits := s.link.credits - 1 } }

/-! ### Watched words (R53) -/

/-- R166: the Order Unit receives a post index. -/
def postIndexWrite (s : State) (v : Nat) : State := takeOrder { s with order := { s.order with post := v % 64 } }

/-- R172: how many notices a consumed index consumes, from the present one. -/
def consumedSpan (s : State) (v : Nat) : Nat := (v % 256 + 256 - s.notice.consumedIndex) % 256

/-- R11, R172: the outstanding mark of a class whose notice lies among the first n from the consumed index is cleared. -/
def passOutstanding (consumed n : Nat) (o : Outstanding) : Outstanding :=
  match o with
  | .slot k => if (k + 256 - consumed) % 256 < n then .clear else .slot k
  | o => o

/-- R173, R56: NOTICE OVERFLOW is written at once when no work of the part waits, and otherwise takes its place behind that work
(log 9). One that waits already carries this report too. -/
def reportOverflow (s : State) : State := if reportWaits s then s else emit s .overflow

/-- R172: the notices up to the consumed index v are consumed, with their marks. -/
def consumeNotices (s : State) (v : Nat) : State :=
  let n := consumedSpan s v
  { s with notice := { s.notice with
    consumedIndex := v % 256
    unconsumed := s.notice.unconsumed.drop n
    outstanding := s.notice.outstanding.map (passOutstanding s.notice.consumedIndex n) } }

/-- R172, R173: the Notice Unit receives a consumed index. With drops to report the attention condition is evaluated once NOTICE
OVERFLOW has been written, otherwise at once. -/
def consumedIndexWrite (s : State) (v : Nat) : State :=
  if consumedSpan s v ≤ unconsumedCount s then
    let t := consumeNotices s v
    if unconsumedCount t < Config.noticePlaces && decide (0 < t.notice.overflow) then reportOverflow t
    else evaluateAttention t
  else s

/-- R53: all four mask entries of the word at the head of the line are set. -/
def wordMasked (mask : BitVec 64) : Bool :=
  mask.getLsbD 0 && mask.getLsbD 1 && mask.getLsbD 2 && mask.getLsbD 3

/-- R53: a PROCESSOR write to a line that holds a watched word. -/
def watchedWrite (s : State) (a : Nat) (data : List Byte) (mask : BitVec 64) : State :=
  if !wordMasked mask then s
  else if a = controlBase s.caSel + Config.postIndexAt then postIndexWrite s (field data 0 4)
  else if a = controlBase s.caSel + Config.consumedIndexAt then consumedIndexWrite s (field data 0 4)
  else s

/-! ### Plain space (R10, R52) -/

/-- R10: why a plain access is aborted. -/
def plainCheck (s : State) (a : Nat) : Option FaultKind :=
  if installedBytes s.memSize ≤ a then some .noMemory
  else if 0 < s.pool.size ∧ s.pool.first * Config.granule ≤ a ∧ a < (s.pool.first + s.pool.size) * Config.granule then
    some .poolFence
  else none

/-- R52, R69: the declared view buffer that holds a line, and the line's number within it. -/
def viewLineOf (f : FocusSetup) (a : Nat) : Option (Nat × Nat) :=
  ((declaredBases f).findIdx? fun b => decide (b ≤ a ∧ a < b + bufferLength f)).map fun i =>
    (i, (a - (declaredBases f).getD i 0) / Config.line)

/-- R52, R69: a CAPTURE write to plain space is handed to the view tap. -/
def viewWrite (s : State) (a : Nat) (full : Bool) (data : List Byte) : State :=
  match s.focus.setup with
  | none => s
  | some f =>
    match viewLineOf f a with
    | none => s
    | some (buffer, l) => viewReceive s f buffer l full data

/-- R52, R53: a plain write that has passed the checks is stored and handed on. -/
def plainWrite (s : State) (c : SourceClass) (a : Nat) (data : List Byte) (mask : BitVec 64) : State :=
  let s := enterPassWrite s a data mask
  match c with
  | .capture => viewWrite s a (mask == fullMask) data
  | .processor => watchedWrite s a data mask
  | _ => s

/-! ### Writes to shot space (R3, R4, R29, R34, R35) -/

/-- R34: the capture timer restarts with the full timeout of the profile copy. -/
def restartTimer (s : State) (w : Fin 64) : State :=
  s.modShot w fun x => { x with timer := (x.profile.map (captureTimer s.now)).getD x.timer }

/-- R4, R34: a CAPTURE write at window offset o is relocated and stored, a granule being allocated first to an empty entry, and
handed to the shot tap. None when R6 rules the allocation out. -/
def captureStore (s : State) (w : Fin 64) (o : Nat) (data : List Byte) (mask : BitVec 64) : Option State :=
  let g := o / Config.granule
  let mapped : Option State := if (s.rawEntry w g).isSome then some s else allocateRaw s w g
  mapped.map fun t =>
    let n := (t.rawEntry w g).getD 0
    let t := restartTimer (enterPassWrite t (n * Config.granule + o % Config.granule) data mask) w
    tapReceive t w (o / Config.line) (mask == fullMask) data

/-- R4, R35: a CAPTURE write to a CAPTURING shot that has passed the checks; the final line seals the shot. -/
def captureWrite (s : State) (w : Fin 64) (o : Nat) (data : List Byte) (mask : BitVec 64) : Option State :=
  (captureStore s w o data mask).map fun t =>
    if o + Config.line = (t.shot w).rawLength then sealShot t w .finalLine else t

/-- R29, R30: an admitted open: the record, the write, SHOT OPENED, and what the Development Engine and the Lens Line
Controller do at it (R127, R134, R111), which comes after SHOT OPENED and DEVELOP FAILED: no rule orders it (DESIGN CHOICE, log 14). -/
def admitOpen (s : State) (w : Fin 64) (p : Profile) (data : List Byte) (mask : BitVec 64) : Option State :=
  let t := (initShot s w p).1
  let dev := (t.shot w).dev
  (captureStore t w 0 data mask).map fun t =>
    let t := shotOpened t w p dev
    let t := if (initShot s w p).2 then developFailed t w .queueFull (some .develop) else t
    judgeStopAtOpen (if dev = .inline then inlineOpened t else engineChoose t)

/-- R29: an open attempt is judged. -/
def openAttempt (s : State) (w : Fin 64) (data : List Byte) (mask : BitVec 64) : Option State :=
  match judgeOpen s with
  | .error r => some (refuseOpen s w r)
  | .ok p => admitOpen s w p data mask

/-- R3: a write to shot space. -/
def shotWrite (s : State) (c : SourceClass) (a : Nat) (w : Fin 64) (o : Nat) (data : List Byte) (mask : BitVec 64) :
    Option State :=
  match (s.shot w).state with
  | .free =>
    if c = .capture && mask == fullMask && decide (o = 0) then openAttempt s w data mask
    else some (plainFault s c .notOpen a)
  | .capturing =>
    if c ≠ .capture then some (shotFault s w c .access o false)
    else if (s.shot w).rawLength ≤ o then some (shotFault s w c .length o false)
    else captureWrite s w o data mask
  | _ => some (shotFault s w c .access o false)

/-! ### Taking a write -/

/-- R5: a write to preview space. -/
def previewWrite (s : State) (c : SourceClass) (a : Nat) (w : Fin 64) (o : Nat) : State :=
  if (s.shot w).state = .free then plainFault s c .notOpen a else shotFault s w c .access o true

/-- R50, R51: what taking a write does, besides leaving its slot. -/
def writeTaken (s : State) (c : SourceClass) (a : Nat) (data : List Byte) (mask : BitVec 64) : Option State :=
  match classify a with
  | .unassigned => some (plainFault s c .unassigned a)
  | .preview w o => some (previewWrite s c a w o)
  | .shot w o => shotWrite s c a w o data mask
  | .plain =>
    match plainCheck s a with
    | some k => some (plainFault s c k a)
    | none => some (plainWrite s c a data mask)

/-- R50: the Link Port may take a request: start-up has ended and the pass-through queue has a place. -/
def mayTake (s : State) : Bool :=
  decide (s.phase ≠ .initialising) && decide (s.port.pass.length < Config.passThroughPlaces)

/-- R48, R50: the oldest waiting write leaves its slot, and its credit is returned. -/
def freeWriteSlot (s : State) (rest : List Request) : State :=
  { s with link := { s.link with waiting := rest, credits := s.link.credits + 1 } }

/-- TAKE_WRITE (R50): the oldest waiting request is a write. In a strap fault it is dropped (R178). -/
def execTakeWrite (s : State) : Host.Outcome State Fault Refusal :=
  match s.link.waiting with
  | [] => .next s
  | r :: rest =>
    match r.kind with
    | .read => .next s
    | .write data mask =>
      if !mayTake s then .next s
      else if s.phase = .strapFault then .next (freeWriteSlot s rest)
      else
        match writeTaken (freeWriteSlot s rest) (sourceClass r.tag) (lineAddr r) data mask with
        | some t => .next t
        | none => .fault .allocationBeyondReservation

/-! ### Taking a read -/

/-- R54: a response becomes ready. -/
def respond (s : State) (txn : BitVec 5) (data : List Byte) (ok : Bool) : State :=
  { s with link := { s.link with ready := s.link.ready ++ [{ txn := txn, data := data, ok := ok }] } }

/-- R8: an aborted read is answered with all-ones data. -/
def abortRead (s : State) (txn : BitVec 5) : State := respond s txn onesLine false

/-- R4, R5: a read of a map entry is served from DRAM, or with zeros from an empty entry. -/
def serveRead (s : State) (txn : BitVec 5) (entry : Option Nat) (o : Nat) : State :=
  match entry with
  | some n => enterPassRead s (n * Config.granule + o % Config.granule) txn none
  | none => respond s txn zeroLine true

/-- R3: the access key for reads of shot space. -/
def readKey (st : ShotState) (c : SourceClass) : Bool :=
  match st, c with
  | .capturing, .capture | .capturing, .processor => true
  | .sealed, .processor | .sealed, .card | .sealed, .tether | .sealed, .display => true
  | _, _ => false

/-- R142: the read that was just taken carries the line that a pass has accepted. -/
def acceptRead (s : State) (token : Option (Nat × Nat)) (zeros : Bool) : State :=
  match token with
  | none => s
  | some (pass, line) =>
    if zeros then giveLine s pass line zeroLine
    else
      { s with port := { s.port with pass := s.port.pass.dropLast ++ (s.port.pass.getLast?.toList.map fun e =>
        match e.kind with
        | .read r => { e with kind := .read { r with accepted := some (pass, line) } }
        | .write _ _ => e) } }

/-- R3, R4, R140, R157: a read of shot space. -/
def shotRead (s : State) (c : SourceClass) (txn : BitVec 5) (a : Nat) (w : Fin 64) (o : Nat) : State :=
  let x := s.shot w
  if x.state = .free then abortRead (plainFault s c .notOpen a) txn
  else if !readKey x.state c then abortRead (shotFault s w c .access o false) txn
  else if x.rawLength ≤ o then abortRead (shotFault s w c .length o false) txn
  else
    let entry := s.rawEntry w (o / Config.granule)
    let s := serveRead s txn entry o
    match c with
    | .card => acceptRead (cardRead s w o).1 (cardRead s w o).2 entry.isNone
    | .tether => tetherRead s w false
    | _ => s

/-- R5, R157: a read of preview space. -/
def previewRead (s : State) (c : SourceClass) (txn : BitVec 5) (a : Nat) (w : Fin 64) (o : Nat) : State :=
  let x := s.shot w
  if x.state = .free then abortRead (plainFault s c .notOpen a) txn
  else if c = .capture || c = .other || x.state = .discarding then abortRead (shotFault s w c .access o true) txn
  else if x.state ≠ .sealed || x.dev ≠ .done then abortRead (shotFault s w c .previewNotReady o true) txn
  else if x.previewLength ≤ o then abortRead (shotFault s w c .length o true) txn
  else
    let s := serveRead s txn (s.previewEntry w (o / Config.granule)) o
    match c with
    | .tether => tetherRead s w true
    | _ => s

/-- R50, R51: what taking a read does. -/
def readTaken (s : State) (c : SourceClass) (txn : BitVec 5) (a : Nat) : State :=
  match classify a with
  | .unassigned => abortRead (plainFault s c .unassigned a) txn
  | .preview w o => previewRead s c txn a w o
  | .shot w o => shotRead s c txn a w o
  | .plain =>
    match plainCheck s a with
    | some k => abortRead (plainFault s c k a) txn
    | none => enterPassRead s a txn none

/-- TAKE_READ (R50): the oldest waiting request is a read. It keeps its slot until its response is sent. In a strap fault it is
aborted without a fault record (R178). -/
def execTakeRead (s : State) : Host.Outcome State Fault Refusal :=
  match s.link.waiting with
  | [] => .next s
  | r :: rest =>
    match r.kind with
    | .write _ _ => .next s
    | .read =>
      if !mayTake s then .next s
      else
        let t := { s with link := { s.link with waiting := rest } }
        if s.phase = .strapFault then .next (abortRead t r.txn)
        else .next (readTaken t (sourceClass r.tag) r.txn (lineAddr r))

/-! ### Responses -/

/-- READ_DATA_RETURN (R54, R142): DRAM returns the data of the k-th pass-through read that it has been granted. -/
def execReadDataReturn (k : Nat) (s : State) : Host.Outcome State Fault Refusal :=
  match s.port.passFlight[k]? with
  | none => .next s
  | some r =>
    let s := { s with port := { s.port with passFlight := s.port.passFlight.eraseIdx k } }
    let s := if r.respond then respond s r.txn r.data true else s
    match r.accepted with
    | none => .next s
    | some (pass, line) => .next (giveLine s pass line r.data)

/-- READ_RESPONSE_SENT (R54): the response that became ready first is sent, and its slot and credit are freed. -/
def execReadResponseSent (s : State) : Host.Outcome State Fault Refusal :=
  match s.link.ready with
  | [] => .next s
  | r :: rest =>
    .next { s with link := { s.link with ready := rest, credits := s.link.credits + 1, lastSent := some r } }

/-! ### Link reset -/

/-- R58: the response of a taken read falls. -/
def silence (e : PassEntry) : PassEntry :=
  match e.kind with
  | .read r => { e with kind := .read { r with respond := false } }
  | .write _ _ => e

/-- LINK_RESET (R58). -/
def execLinkReset (s : State) : Host.Outcome State Fault Refusal :=
  .next { s with
    link := { s.link with waiting := [], ready := [], credits := Config.linkSlots }
    port := { s.port with
      pass := s.port.pass.map silence
      passFlight := s.port.passFlight.map fun r => { r with respond := false } } }

end Sys2Proof.Machine
end

