-- ==== Sys2Proof/Machine/MemoryPort.lean ====
section
/-! DEFINITION. The Memory Port's own steps: the downstream arbiter's grants (R57) and the entry of held requests (R56). -/

namespace Sys2Proof.Machine

/-- The queue whose head is granted (R57). -/
inductive Grant where
  | pass | write | read
  deriving DecidableEq, Repr

/-- R57 steps 1 and 3: of the two own heads, the one that entered the memory path earlier. -/
def earlier (w : Option WriteEntry) (r : Option ReadEntry) : Option Grant :=
  match w, r with
  | none, none => none
  | some _, none => some .write
  | none, some _ => some .read
  | some w, some r => some (if w.entry < r.entry then .write else .read)

/-- R57: the arbiter's choice; none when all queues are empty. -/
def grantChoice (p : MemoryPort) : Option Grant :=
  match earlier (p.writes.head?.filter fun w => Config.waitLimit ≤ w.wait)
      (p.reads.head?.filter fun r => Config.waitLimit ≤ r.wait) with
  | some g => some g
  | none => if p.pass.isEmpty then earlier p.writes.head? p.reads.head? else some .pass

/-- R57: the pass-through head is granted, and every own request's wait count rises. -/
def grantPass (s : State) : State :=
  match s.port.pass with
  | [] => s
  | e :: rest =>
    { s with port := { s.port with
      pass := rest
      writes := s.port.writes.map fun w => { w with wait := w.wait + 1 }
      reads := s.port.reads.map fun r => { r with wait := r.wait + 1 }
      passFlight := s.port.passFlight ++
        (match e.kind with
          | .read r => [r]
          | .write _ _ => []) } }

/-- R57: the head of the inserted-write queue is granted. -/
def grantWrite (s : State) : State := { s with port := { s.port with writes := s.port.writes.tail } }

/-- R57: the head of the internal-read queue is granted. The data of a dropped read is discarded (R134, R135). -/
def grantRead (s : State) : State :=
  match s.port.reads with
  | [] => s
  | e :: rest =>
    { s with port := { s.port with
      reads := rest
      readFlight := if e.purpose = .dropped then s.port.readFlight else s.port.readFlight ++ [e] } }

/-- DRAM_GRANT (R57). -/
def execDramGrant (s : State) : Host.Outcome State Fault Refusal :=
  match grantChoice s.port with
  | none => .next s
  | some .pass => .next (grantPass s)
  | some .write => .next (grantWrite s)
  | some .read => .next (grantRead s)

/-- R56: the first held write is inserted, and the work that waited for it goes on as far as it needs no place. -/
def enterHeldWrite (s : State) : State := goOn (settle 1 s)

/-- R56: the first held read is issued. -/
def enterHeldRead (s : State) : State :=
  match s.port.heldReads with
  | [] => s
  | (purpose, addr) :: rest =>
    if s.port.reads.length < Config.readPlaces then
      enterRead { s with port := { s.port with heldReads := rest } } purpose addr
    else s

/-- OWN_REQUEST_ENTERS (R56): the first held request of a queue enters it when there is a place, and the work that waited for it
goes on. -/
def execOwnRequestEnters (q : OwnQueue) (s : State) : Host.Outcome State Fault Refusal :=
  match q with
  | .insertedWrites => .next (engineContinue (enterHeldWrite s))
  | .internalReads => .next (enterHeldRead s)

end Sys2Proof.Machine
end

