-- ==== Sys2Proof/Machine/Orders.lean ====
section
/-! DEFINITION. The Order Unit's fetching and dispatch (R167, R168, R169) and the Notice Unit's own steps: SET NOTICE (R176), the
age of a notice (R174) and the end of a pulse (R175). -/

namespace Sys2Proof.Machine

/-! ### Fetching -/

/-- The data of the reads of a purpose that DRAM has returned, in the order in which they were issued. -/
def returnedReads (s : State) (p : ReadPurpose) : List ReadEntry := s.port.readFlight.filter fun r => r.purpose = p

/-- Reads of a purpose that wait for a place or for a grant. -/
def readsWaiting (s : State) (p : ReadPurpose) : Bool :=
  s.port.reads.any (fun r => r.purpose = p) || s.port.heldReads.any (fun r => r.1 = p)

/-- The returned reads of a purpose are taken up. -/
def takeReturned (s : State) (p : ReadPurpose) : State :=
  { s with port := { s.port with readFlight := s.port.readFlight.filter fun r => r.purpose ≠ p } }

/-- The order in progress moves to a phase. -/
def setPhase (s : State) (p : OrderPhase) : State := { s with order := { s.order with phase := p } }

/-- Control area address of line i of a staging image (R168). -/
def stagingAddr (s : State) (o : OrderRecord) (i : Nat) : Nat :=
  controlBase s.caSel + Config.stagingArea + o.staging + Config.line * i

/-- R168: the image's lines are read in ascending address order. -/
def fetchImage (s : State) (o : OrderRecord) (len : Nat) : State :=
  (List.range (len / Config.line)).foldl (fun s i => issueRead s .staging (stagingAddr s o i)) (setPhase s (.imageFetch o))

/-- R167, R168: a record that has returned is decoded: an order with an image has it fetched, or is refused BAD-PARAM when the
image does not lie in the staging area; any other order, one with an unknown code included, goes on as it is. -/
def dispatchRecord (s : State) (o : OrderRecord) : State :=
  match (orderKind o.code).bind OrderKind.imageLength with
  | none => setPhase s (.dispatched o [])
  | some len => if stagingFits o len then fetchImage s o len else finishOrder s o .badParam

/-- ORDER_RECORD_FETCHED (R167): the record of the order in progress has returned. -/
def execOrderRecordFetched (s : State) : Host.Outcome State Fault Refusal :=
  match s.order.phase, returnedReads s .orderRecord with
  | .fetching, r :: _ => .next (dispatchRecord (takeReturned s .orderRecord) (decodeOrder r.data))
  | _, _ => .next s

/-- STAGING_IMAGE_FETCHED (R168): every line of the image of the order in progress has returned. -/
def execStagingImageFetched (s : State) : Host.Outcome State Fault Refusal :=
  match s.order.phase with
  | .imageFetch o =>
    if readsWaiting s .staging then .next s
    else
      .next (setPhase (takeReturned s .staging)
        (.dispatched o ((returnedReads s .staging).flatMap fun r => r.data)))
  | _ => .next s

/-- UNKNOWN_ORDER (R167): the order handed on has a code that names no order. -/
def execUnknownOrder (s : State) : Host.Outcome State Fault Refusal :=
  match s.order.phase with
  | .dispatched o _ => .next (if orderKind o.code = none then finishOrder s o .unknown else s)
  | _ => .next s

/-! ### SET NOTICE -/

/-- Mode codes of the attention line (11.2). -/
def attentionModeOf (n : Nat) : Option AttentionMode :=
  match n with
  | 0 => some .level
  | 1 => some .pulse
  | _ => none

/-- R176: the four settings are replaced and the condition is evaluated. A change of mode ends a running pulse or a held level,
and the line starts in the new mode as if the condition had just begun to stand. -/
def setNotice (s : State) (n t : Nat) (m : AttentionMode) (pulse : Nat) : State :=
  let u := s.notice
  let u := if u.mode = m then u else { u with standing := false, line := false, pulse := .stopped }
  evaluateAttention { s with notice := { u with batch := n, age := t, mode := m, pulseLength := pulse } }

/-- R176: SET NOTICE. -/
def setNoticeRule (o : OrderRecord) (_ : List Byte) (s : State) : State × OrderStatus :=
  let n := field o.params 0 1
  let pulse := field o.params 4 1
  match attentionModeOf (field o.params 3 1) with
  | none => (s, .badParam)
  | some m =>
    if n = 0 ∨ 64 < n ∨ pulse = 0 then (s, .badParam) else (setNotice s n (field o.params 1 2) m pulse, .done)

/-- SET_NOTICE (R176). -/
def execSetNotice (s : State) : Host.Outcome State Fault Refusal := runOrder s .setNotice setNoticeRule

/-! ### Time in the Notice Unit -/

/-- R174: the time at which the oldest unconsumed notice reaches age T. -/
def ageTime (s : State) : Option Nat :=
  match s.notice.unconsumed with
  | [] => none
  | m :: _ => if 0 < s.notice.age then some (m.time + s.notice.age) else none

/-- NOTICE_AGE_EXPIRY (R174): the condition is evaluated when the oldest unconsumed notice's age reaches T. The Notice Unit takes
no action in a strap fault (R178). -/
def execNoticeAgeExpiry (s : State) : Host.Outcome State Fault Refusal :=
  match ageTime s with
  | none => .next s
  | some t => .next (if s.phase = .started then evaluateAttention (s.advanceTo t) else s)

/-- ATTENTION_PULSE_END (R175): the pulse length has passed. -/
def execAttentionPulseEnd (s : State) : Host.Outcome State Fault Refusal :=
  match s.notice.pulse with
  | .stopped => .next s
  | .running d => .next { s.advanceTo d with notice := { s.notice with line := false, pulse := .stopped } }

end Sys2Proof.Machine
end

