-- ==== Sys2Proof/Machine/StartUp.lean ====
section
/-! DEFINITION. Power-on reset and the end of start-up (R177, R178). -/

namespace Sys2Proof.Machine

/-- POWER_ON_RESET (R177): every block takes its reset values and the straps are sampled. The level of lens-present is the
outside's and stays, and so do the commands that wait. -/
def execPowerOnReset (caSel memSize : BitVec 2) (s : State) : Host.Outcome State Fault Refusal :=
  .next (State.powerOn caSel memSize s.lensPin s.pending)

/-- R177, R178: the control area lies wholly inside the installed DRAM. -/
def controlInside (s : State) : Bool :=
  decide (controlBase s.caSel + Config.granule ≤ installedBytes s.memSize)

/-- R177 step 3: the STARTED notice. -/
def startedNotice (s : State) : Notice :=
  plainNotice .started 0 (byte1 s.caSel.toNat ++ byte1 s.memSize.toNat)

/-- R177 steps 2 to 5. "The whole cursor page" is taken as its nine lines that hold items; lines 9 to 63 of the region hold none
and stay as DRAM holds them (DESIGN CHOICE, log 27). The nine are inserted in ascending order, which no rule states (DESIGN CHOICE,
log 14). -/
def startUp (s : State) : State :=
  let s := (List.finRange 9).foldl publish { s with phase := .started }
  let s := hand s (startedNotice s)
  if s.lensPin then attachLens s else s

/-- START_UP_COMPLETE (R177): the Memory Port has initialised DRAM. In a strap fault the attention line is asserted and held, and
nothing is written (R178). -/
def execStartUpComplete (s : State) : Host.Outcome State Fault Refusal :=
  if s.phase ≠ .initialising then .next s
  else if controlInside s then .next (startUp s)
  else .next { s with phase := .strapFault, notice := { s.notice with line := true } }

end Sys2Proof.Machine
end

