-- ==== Sys2Proof/Machine/Dispatch.lean ====
section
/-! DEFINITION. The effect of each command on everything but the queue of commands: one arm per row of the table. -/

namespace Sys2Proof.Machine

/-- The effect of a command. -/
def exec (i : Instr) (s : State) : Host.Outcome State Fault Refusal :=
  match i with
  | .powerOnReset caSel memSize => Sys2Proof.Machine.execPowerOnReset caSel memSize s
  | .startUpComplete => Sys2Proof.Machine.execStartUpComplete s
  | .linkReset => Sys2Proof.Machine.execLinkReset s
  | .requestArrives r => Sys2Proof.Machine.execRequestArrives r s
  | .takeWrite => Sys2Proof.Machine.execTakeWrite s
  | .takeRead => Sys2Proof.Machine.execTakeRead s
  | .dramGrant => Sys2Proof.Machine.execDramGrant s
  | .ownRequestEnters q => Sys2Proof.Machine.execOwnRequestEnters q s
  | .readDataReturn k => Sys2Proof.Machine.execReadDataReturn k s
  | .readResponseSent => Sys2Proof.Machine.execReadResponseSent s
  | .orderRecordFetched => Sys2Proof.Machine.execOrderRecordFetched s
  | .stagingImageFetched => Sys2Proof.Machine.execStagingImageFetched s
  | .unknownOrder => Sys2Proof.Machine.execUnknownOrder s
  | .setPool => Sys2Proof.Machine.execSetPool s
  | .setPoolMarksOnly => Sys2Proof.Machine.execSetPoolMarksOnly s
  | .setProfile => Sys2Proof.Machine.execSetProfile s
  | .selectProfile => Sys2Proof.Machine.execSelectProfile s
  | .sealOrder => Sys2Proof.Machine.execSealOrder s
  | .discard => Sys2Proof.Machine.execDiscard s
  | .protect => Sys2Proof.Machine.execProtect s
  | .unprotect => Sys2Proof.Machine.execUnprotect s
  | .rate => Sys2Proof.Machine.execRate s
  | .setFocus => Sys2Proof.Machine.execSetFocus s
  | .focusStart => Sys2Proof.Machine.execFocusStart s
  | .lensMessage => Sys2Proof.Machine.execLensMessage s
  | .loadTone => Sys2Proof.Machine.execLoadTone s
  | .redevelop => Sys2Proof.Machine.execRedevelop s
  | .cardDone => Sys2Proof.Machine.execCardDone s
  | .cardRetry => Sys2Proof.Machine.execCardRetry s
  | .setSelection => Sys2Proof.Machine.execSetSelection s
  | .tetherDone => Sys2Proof.Machine.execTetherDone s
  | .sendNow => Sys2Proof.Machine.execSendNow s
  | .setNotice => Sys2Proof.Machine.execSetNotice s
  | .captureTimeout w => Sys2Proof.Machine.execCaptureTimeout w s
  | .measurementComplete => Sys2Proof.Machine.execMeasurementComplete s
  | .inlineLineConsumed => Sys2Proof.Machine.execInlineLineConsumed s
  | .replayLineReturned => Sys2Proof.Machine.execReplayLineReturned s
  | .lensPresentActive => Sys2Proof.Machine.execLensPresentActive s
  | .lensPresentInactive => Sys2Proof.Machine.execLensPresentInactive s
  | .lensExchangeEnd reply => Sys2Proof.Machine.execLensExchangeEnd reply s
  | .identRetryTimerExpiry => Sys2Proof.Machine.execIdentRetryTimerExpiry s
  | .pollTimerExpiry => Sys2Proof.Machine.execPollTimerExpiry s
  | .noticeAgeExpiry => Sys2Proof.Machine.execNoticeAgeExpiry s
  | .attentionPulseEnd => Sys2Proof.Machine.execAttentionPulseEnd s

end Sys2Proof.Machine
end

