-- ==== Sys2Proof/Safety.lean ====
section
/-! DEFINITION. What a sound state of the part and a safe run are, in the terms of the spec's own laws, and the frames in which
statements about a step are made. -/

namespace Sys2Proof.Machine

/-! ### Frames -/

/-- Byte a lies outside the n bytes from `base`. -/
def Outside (base n a : Nat) : Prop := a < base ∨ base + n ≤ a

/-- The notice ring slot that lies i notices behind slot k (R170, R171). -/
def slotAfter (k : Nat) : Nat → Nat
  | 0 => k
  | i + 1 => (slotAfter k i + 1) % 256

/-- The address of notice ring slot k (R163, R171). -/
def slotAddr (s : State) (k : Nat) : Nat := controlBase s.caSel + Config.noticeRing + 32 * k

/-- A notice number i numbers behind n (R171). -/
def numberAfter (n : Nat) : Nat → Nat
  | 0 => n
  | i + 1 => (numberAfter n i + 1) % 65536

/-- The overflow count n after i drops (R171). -/
def overflowAfter (n : Nat) : Nat → Nat
  | 0 => n
  | i + 1 => hold32 (overflowAfter n i + 1)

/-- Byte a is none of the bytes that the mask of line l selects. -/
def OutsideLine (s : State) (l : OwnLine) (a : Nat) : Prop :=
  ∀ i, i < 64 → (ownLineWrite s l).2.2.getLsbD i = true → a ≠ (ownLineWrite s l).1 + i

/-- The state with other outstanding marks of the plain-fault classes (R11). -/
def State.withMarks (s : State) (o : PerClass Outstanding) : State :=
  { s with notice := { s.notice with outstanding := o } }

/-- The notice ring's bookkeeping after j notices have been written and d dropped (R171). With none written the attention
condition is not evaluated. -/
structure RingAfter (j d : Nat) (u v : NoticeUnit) : Prop where
  writeIndex : v.writeIndex = slotAfter u.writeIndex j
  number : v.number = numberAfter u.number j
  overflow : v.overflow = overflowAfter u.overflow d
  unconsumed : ∃ marks, marks.length = j ∧ v.unconsumed = u.unconsumed ++ marks
  attention : j = 0 → v.standing = u.standing ∧ v.line = u.line ∧ v.pulse = u.pulse

/-- The frame of what a block publishes: t is s but for writes of the lines `ls` and of at most n notices, as far as they have
entered the memory path, and for what waits behind them. Every register, map, record, queue and counter outside the inserted
writes and the notice ring's own bookkeeping is as in s, and so is every byte of memory outside those slots and the bytes that
those lines' masks select. Without a notice the Notice Unit is as in s; with notices, its settings and outstanding marks are. -/
structure OnlyReports (ls : List OwnLine) (n : Nat) (s t : State) : Prop where
  blocks : { t with mem := s.mem, port := s.port, notice := s.notice } = s
  port : { t.port with writes := s.port.writes, work := s.port.work, nextEntry := s.port.nextEntry } = s.port
  notice : { t.notice with
    writeIndex := s.notice.writeIndex, number := s.notice.number, overflow := s.notice.overflow,
    unconsumed := s.notice.unconsumed, standing := s.notice.standing, line := s.notice.line,
    pulse := s.notice.pulse } = s.notice
  quiet : n = 0 → t.notice = s.notice
  count : ∃ j d, j + d ≤ n ∧ RingAfter j d s.notice t.notice
  mem : ∀ a, (∀ l ∈ ls, OutsideLine s l a) →
    (∀ i, i < n → Outside (slotAddr s (slotAfter s.notice.writeIndex i)) 32 a) → t.mem.read a = s.mem.read a

/-- The wider frame of the part's own work: t is s but for memory, the queues of the part's own traffic, the notice ring's
bookkeeping and how far the order in progress has come. -/
structure OnlyOwnWork (s t : State) : Prop where
  blocks : { t with mem := s.mem, port := s.port, notice := s.notice, order := s.order } = s
  port : { t.port with
    writes := s.port.writes, reads := s.port.reads, work := s.port.work, heldReads := s.port.heldReads,
    nextEntry := s.port.nextEntry } = s.port
  notice : { t.notice with
    writeIndex := s.notice.writeIndex, number := s.notice.number, overflow := s.notice.overflow,
    unconsumed := s.notice.unconsumed, outstanding := s.notice.outstanding, standing := s.notice.standing,
    line := s.notice.line, pulse := s.notice.pulse } = s.notice
  post : t.order.post = s.order.post

/-- The memory is in its canonical form (log 2). -/
def MemoryCanonical (s : State) : Prop := s.mem.wf = true

/-- The frame of a plain-space fault of class c and kind k (R8, R10, R11): the class's counter rises. While its last notice stands
unconsumed the Notice Unit is as before, otherwise one PLAIN FAULT is handed over, and only that class's mark changes. With places
free the record at the write index carries class and kind. -/
structure PlainFaulted (c : SourceClass) (k : FaultKind) (s t : State) : Prop where
  reports : OnlyReports [.cursor 7, .cursor 3] 1
    ({ s with plainFaults := s.plainFaults.set c (hold32 (s.plainFaults.get c + 1)) }.withMarks t.notice.outstanding) t
  again : s.notice.outstanding.get c ≠ .clear → t.notice = s.notice
  first : s.notice.outstanding.get c = .clear →
    t.notice.outstanding = s.notice.outstanding.set c (t.notice.outstanding.get c)
  record : MemoryCanonical s → s.notice.writeIndex < 256 → s.port.work = [] → s.port.writes.length + 3 ≤ 32 →
    unconsumedCount s < 255 → s.notice.outstanding.get c = .clear →
    t.mem.read (slotAddr s s.notice.writeIndex + 10) = BitVec.ofNat 8 c.code ∧
    t.mem.read (slotAddr s s.notice.writeIndex + 11) = BitVec.ofNat 8 k.code

/-- The frame of a fault of class c and kind k against the shot in window w at offset o (R8, R9): the class's fault count rises and
holds at 65535, and the first fault is kept. Only the first fault of a class is reported. -/
structure ShotFaulted (w : Fin 64) (c : SourceClass) (k : FaultKind) (o : Nat) (s t : State) : Prop where
  reports : OnlyReports [.mirror w 6, .cursor 3] 1
    (s.modShot w fun x => { x with
      faults := x.faults.set c (min (x.faults.get c + 1) 65535)
      firstFault := x.firstFault.or (some { cls := c, kind := k, offset := o }) }) t
  again : (s.shot w).faults.get c ≠ 0 → t.notice = s.notice

/-- No shot but that in window w has changed, and neither have maps and pool. -/
structure OthersKept (s u : State) (w : Fin 64) : Prop where
  shots : ∀ v, v ≠ w → u.shot v = s.shot v
  pool : u.pool = s.pool
  maps : u.maps = s.maps

/-- R18, R44: window w has become FREE, its granules at the tail of the free queue in map order; no other window has changed. -/
structure Freed (s u : State) (w : Fin 64) : Prop where
  shot : u.shot w = freeShot
  maps : u.mapsOf w = emptyMaps
  free : u.pool.free = s.pool.free ++ mappedGranules (s.mapsOf w)
  others : ∀ v, v ≠ w → u.shot v = s.shot v ∧ u.mapsOf v = s.mapsOf v

/-- R7, R127, R132: the engine, which was in s, has begun or resumed job j under its shot's profile p, ahead of the jobs `rest`. A new
job starts with empty counts, and with a checksum and a still accumulation when the shot has neither CRC nor focus check; a suspended
one goes on from its saved progress. Its first line is asked for through the raw map, or is zeros from an empty entry. -/
structure JobBegun (s t : State) (j : Job) (rest : List Job) (p : Profile) : Prop where
  activity : t.engine.activity = .replay
  queue : t.engine.queue = { j with begun := true, saved := none } :: rest
  status : (t.shot j.window).dev = .replaying
  row : t.engine.run.nextLine = j.nextRow * linesPerRow p.width ∧ t.engine.run.acc = []
  fresh : j.begun = false →
    t.engine.run.hist = zeroHist ∧ t.engine.run.clip = ⟨0, 0, 0⟩ ∧
    t.engine.run.crc = (if (t.shot j.window).crc = none then some crcInit else none) ∧
    t.engine.run.still = (if (t.shot j.window).focusCheck = none then
      (t.shot j.window).snapshot.map fun n => { zone := n.zone, sums := zeroProfiles } else none)
  resumed : ∀ pr, j.begun = true → j.saved = some pr →
    t.engine.run.hist = pr.hist ∧ t.engine.run.clip = pr.clip ∧ t.engine.run.crc = pr.crc ∧ t.engine.run.still = pr.still
  unmapped : s.rawEntry j.window (64 * (j.nextRow * linesPerRow p.width) / Config.granule) = none →
    t.engine.replayLine = .zeros ∧ t.port.reads = s.port.reads
  asked : ∀ n, s.rawEntry j.window (64 * (j.nextRow * linesPerRow p.width) / Config.granule) = some n →
    t.engine.replayLine = .issued ∧
    (s.port.heldReads = [] → s.port.reads.length < 16 →
      ∃ e, t.port.reads = s.port.reads ++ [e] ∧ e.purpose = .replay ∧
        e.addr = n * Config.granule + 64 * (j.nextRow * linesPerRow p.width) % Config.granule)

/-- R63, R131: the readout of the shot in window w, whose record was x, has become DISORDERED in t while the engine works on another
job, and its development status is as R63 steps 3 and 4 leave it: QUEUED for a DEVELOP job in place of INLINE, or FAILED with the
replay queue full; else QUEUED for a CHECK job when it has neither CRC nor job, as far as the queue has a place. -/
structure Disordered (s t : State) (w : Fin 64) (x : Shot) : Prop where
  inline : x.dev = .inline → hasJob s w = false → s.engine.queue.length < 16 →
    t.shot w = { x with tapStatus := .disordered, dev := .queued, reason := some .disorder } ∧
    t.taps.fifo = s.taps.fifo.filter (fun e => e.window ≠ w) ∧
    t.engine.queue = s.engine.queue ++
      [{ window := w, seq := x.seq, kind := .develop, set := x.devSet, nextRow := 0, begun := false, saved := none }]
  inlineFull : x.dev = .inline → hasJob s w = false → 16 ≤ s.engine.queue.length →
    t.shot w = { x with
      tapStatus := .disordered, dev := .failed, reason := some .queueFull, checkOnly := false, hist := zeroHist
      clip := ⟨0, 0, 0⟩ } ∧ t.engine.queue = s.engine.queue
  check : x.dev ≠ .inline → x.crc = none → hasJob s w = false → s.engine.queue.length < 16 →
    t.shot w = { x with tapStatus := .disordered, dev := .queued, checkOnly := true } ∧
    t.engine.queue = s.engine.queue ++
      [{ window := w, seq := x.seq, kind := .check, set := x.devSet, nextRow := 0, begun := false, saved := none }]
  kept : x.dev ≠ .inline → (x.crc ≠ none ∨ hasJob s w = true ∨ 16 ≤ s.engine.queue.length) →
    t.shot w = { x with tapStatus := .disordered } ∧ t.engine.queue = s.engine.queue
  others : ∀ v, v ≠ w → t.shot v = s.shot v
  maps : t.maps = s.maps
  pool : t.pool = s.pool
  running : t.engine.activity = s.engine.activity

/-- The outcome of a seal of the shot in window w under profile p that the release check leaves (R14, R16, R37): `complete` tells
whether the tap has received the whole frame in order, `value` is the checksum it then has. -/
structure SealedFrom (s u : State) (w : Fin 64) (p : Profile) (complete : Bool) (value : BitVec 32) : Prop where
  state : (u.shot w).state = .sealed
  timer : (u.shot w).timer = .stopped
  card : (u.shot w).card = if p.cardRequired then .pending else .notRequired
  verify : (u.shot w).verify = .none
  untethered : p.tetherEvaluated = false → (u.shot w).tether = .notRequired
  undecided : p.tetherEvaluated = true → (s.shot w).focusCheck = none → (u.shot w).tether = .undecided
  /-- R152: while its development is QUEUED or REPLAYING the shot stays UNDECIDED -/
  awaited : p.tetherEvaluated = true → s.engine.activity ≠ .idle →
    (s.engine.activity ≠ .inline w ∨ (s.shot w).tapStatus ≠ .inOrder ∨ complete = true) →
    ((u.shot w).dev = .queued ∨ (u.shot w).dev = .replaying) → (u.shot w).tether = .undecided
  /-- R37 step 7, R152, R153: with the focus check present and the development settled or INLINE the selection table is applied -/
  evaluated : p.tetherEvaluated = true → (s.shot w).focusCheck ≠ none → s.engine.activity ≠ .idle →
    (s.engine.activity ≠ .inline w ∨ (s.shot w).tapStatus ≠ .inOrder ∨ complete = true) →
    (u.shot w).dev ≠ .queued → (u.shot w).dev ≠ .replaying → tetherEntry s w = none →
    (selected s (u.shot w) = none →
      (u.shot w).tether = .notSelected ∧ (u.shot w).sendWhat = none ∧ u.tether.queue = s.tether.queue) ∧
    (∀ send, selected s (u.shot w) = some send →
      (u.shot w).tether = .queued ∧ (u.shot w).sendWhat = some (degrade (u.shot w) send) ∧ (u.shot w).tetherRaw = 0 ∧
      (u.shot w).tetherPreview = 0 ∧
      u.tether.queue = insertEntry s.tether.queue
        { window := w, seq := (s.shot w).seq, send := degrade (u.shot w) send, urgent := (s.shot w).urgent,
          ready := readyFlag (u.shot w) (degrade (u.shot w) send), forced := false })
  context : contextOf u w = none
  maps : u.maps = s.maps
  free : u.pool.free = s.pool.free
  others : ∀ v, v ≠ w → (u.shot v).state = (s.shot v).state
  tapStatus : (u.shot w).tapStatus =
    if (s.shot w).tapStatus = .inOrder ∧ complete = false then .incomplete else (s.shot w).tapStatus
  crc : (u.shot w).crc =
    if (s.shot w).tapStatus = .inOrder ∧ complete = true then some (value, .inline) else (s.shot w).crc
  /-- a shot whose tap status did not become INCOMPLETE keeps its development, while the engine is not IDLE -/
  kept : ((s.shot w).tapStatus ≠ .inOrder ∨ complete = true) → s.engine.activity ≠ .idle →
    (u.shot w).dev = (s.shot w).dev ∧ (u.shot w).reason = (s.shot w).reason ∧
    (u.shot w).checkOnly = (s.shot w).checkOnly ∧ u.engine.queue = s.engine.queue
  /-- R127: an IDLE engine takes the job of a shot that the seal lets it begin -/
  begins : ((s.shot w).tapStatus ≠ .inOrder ∨ complete = true) → s.engine.activity = .idle →
    (∀ v, (s.shot v).dev ≠ .inline) → ∀ j rest, s.engine.queue = j :: rest → j.window = w → JobBegun s u j rest p
  /-- a shot whose tap status became INCOMPLETE has a CHECK job at the tail -/
  check : (s.shot w).tapStatus = .inOrder → complete = false → s.engine.activity ≠ .idle →
    s.engine.activity ≠ .inline w → (s.shot w).crc = none → hasJob s w = false → s.engine.queue.length < 16 →
    (u.shot w).dev = .queued ∧ (u.shot w).checkOnly = true ∧
    (u.shot w).reason = (if (s.shot w).dev = .inline then some .incomplete else (s.shot w).reason) ∧
    u.engine.queue = s.engine.queue ++
      [{ window := w, seq := (s.shot w).seq, kind := .check, set := (s.shot w).devSet, nextRow := 0, begun := false,
         saved := none }]
  /-- with the replay queue full, only INLINE work fails -/
  full : (s.shot w).tapStatus = .inOrder → complete = false → s.engine.activity ≠ .idle →
    s.engine.activity ≠ .inline w → 16 ≤ s.engine.queue.length →
    (u.shot w).dev = (if (s.shot w).dev = .inline then .failed else (s.shot w).dev) ∧
    (u.shot w).reason = (if (s.shot w).dev = .inline then some .incomplete else (s.shot w).reason) ∧
    u.engine.queue = s.engine.queue
  /-- R16: the raw part is returned, and the preview part unless the engine will still write preview lines -/
  reservation : s.engine.activity ≠ .idle → s.engine.activity ≠ .inline w →
    (u.shot w).reservation =
      if (u.shot w).dev = .inline ∨ (((u.shot w).dev = .queued ∨ (u.shot w).dev = .replaying) ∧
          (u.shot w).checkOnly = false)
      then (s.shot w).reservation - (p.rawGranules - (s.shot w).rawMapped) else 0

/-! ### Preview rows -/

/-- R5, R7: the DRAM address of a preview offset of window w through its map. -/
def previewAddr (s : State) (w : Fin 64) (o : Nat) : Nat :=
  (s.previewEntry w (o / Config.granule)).getD 0 * Config.granule + o % Config.granule

/-- The preview lines `lines` of window w, each an offset with bytes and mask, have been inserted in order through the map (R7,
R125), and nothing else has entered the memory path. -/
structure LinesInserted (s t : State) (w : Fin 64) (lines : List (Nat × List Byte × BitVec 64)) : Prop where
  mem : t.mem = lines.foldl (fun m l => m.writeLine (previewAddr s w l.1) l.2.1 l.2.2) s.mem
  writes : t.port.writes.map (fun x => (x.addr, x.data, x.mask)) =
    s.port.writes.map (fun x => (x.addr, x.data, x.mask)) ++ lines.map (fun l => (previewAddr s w l.1, l.2.1, l.2.2))
  port : { t.port with writes := s.port.writes, nextEntry := s.port.nextEntry } = s.port

/-- R125: y is the output row that line l completes, `row` its pixels under set d from the input bytes `bytes`, and `lines` the
preview lines that carry them. -/
structure RowOf (s : State) (p : Profile) (d : DevSet) (l : Nat) (bytes : List Byte) (row : List Pixel)
    (lines : List (Nat × List Byte × BitVec 64)) : Prop where
  ends : (l + 1) % (2 * d.scale * linesPerRow p.width) = 0
  pixels : row = outputRow p d (s.engine.tones[d.tone]?.getD (.replicate 257 0))
    ((l + 1) / (2 * d.scale * linesPerRow p.width) - 1) bytes
  placed : lines = rowWrites
    (((l + 1) / (2 * d.scale * linesPerRow p.width) - 1) * (p.width / (2 * d.scale)) * 4) (row.flatMap Pixel.bytes)
    (decide ((l + 1) / (2 * d.scale * linesPerRow p.width) - 1 + 1 = p.height / (2 * d.scale)))

/-! ### Lines of a replay job -/

/-- R7, R132, R134: the replay job j under profile p, with the jobs `rest` behind it, goes on with the running state `run` and has asked
for the line that it uses next: through the raw map, or as zeros from an empty entry. At a boundary its next input row is advanced. -/
structure LineAsked (s u : State) (j : Job) (rest : List Job) (p : Profile) (run : Running) : Prop where
  engine : u.engine = { s.engine with
    run := run
    queue := (if boundaryAt p j run.nextLine then { j with nextRow := run.nextLine / linesPerRow p.width } else j) :: rest
    replayLine := if (s.rawEntry j.window (64 * run.nextLine / Config.granule)).isNone then .zeros else .issued }
  unmapped : s.rawEntry j.window (64 * run.nextLine / Config.granule) = none → u.port.reads = s.port.reads
  asked : ∀ n, s.rawEntry j.window (64 * run.nextLine / Config.granule) = some n → s.port.heldReads = [] →
    s.port.reads.length < 16 → ∃ e, u.port.reads = s.port.reads ++ [e] ∧ e.purpose = .replay ∧
      e.addr = n * Config.granule + 64 * run.nextLine % Config.granule

/-- R134: at a boundary the replay job j, with the jobs `rest` behind it and the running state `run`, has been suspended for the shot in
window v, whose inline job has begun: j is QUEUED with its next input row and its progress, and its row being formed is given up. -/
structure JobSuspended (s u : State) (j : Job) (rest : List Job) (p : Profile) (run : Running) (v : Fin 64) : Prop where
  engine : u.engine = { s.engine with
    activity := .inline v
    suspend := false
    run := freshRun
    replayLine := .none
    queue := { j with
      nextRow := run.nextLine / linesPerRow p.width
      saved := some { crc := run.crc, hist := run.hist, clip := run.clip, still := run.still } } :: rest }
  shot : u.shot j.window = { s.shot j.window with dev := .queued }
  others : ∀ v, v ≠ j.window → u.shot v = s.shot v
  reads : u.port.reads = s.port.reads

/-! ### Lines of a readout -/

/-- R4, R34, R50: a CAPTURE write to the shot in window w, whose profile copy is p, has left its slot, restarted the capture timer
and entered the memory path at address a. That memory then shows it is the model's reading of R55 (log 3). -/
def lineStored (s : State) (rest : List Request) (w : Fin 64) (p : Profile) (a : Nat) (data : List Byte) (mask : BitVec 64) :
    State :=
  { s with
    link := { s.link with waiting := rest, credits := s.link.credits + 1 }
    shots := s.shots.set w.val { s.shot w with timer := captureTimer s.now p }
    mem := s.mem.writeLine a data mask
    port := { s.port with
      pass := s.port.pass ++ [{ addr := a, kind := .write data mask, entry := s.port.nextEntry }]
      nextEntry := s.port.nextEntry + 1 } }

/-- R66: line l is the last of the still-check range that context c gives the Focus Unit. -/
def endsStillRange (p : Profile) (c : TapContext) (l : Nat) : Prop :=
  ∃ z a, c.range = some z ∧ c.still = some a ∧ stillLine p z.val l = true ∧ lastStillLine p z.val = some l

/-- R62, R66, R82: a context after an in-order line that does not end its still-check range. -/
def contextAfter (p : Profile) (c : TapContext) (l : Nat) (data : List Byte) : TapContext :=
  { c with
    next := l + 1
    crc := crcBytes c.crc data
    still := match c.range, c.still with
      | some z, some a => if stillLine p z.val l then some (addStillLine p l data a) else some a
      | _, a => a }

/-- R61: no context but that of window w has changed. -/
def OtherContextsKept (s t : State) (w : Fin 64) : Prop :=
  ∀ i, (∀ c, s.taps.contexts.get i = some c → c.window ≠ w) → t.taps.contexts.get i = s.taps.contexts.get i

/-! ### The lens line -/

/-- R104, R105: the exchange x in flight is over: 1 ms has passed since its request (the clock is the model's choice, log 5), and the
line is free. -/
def exchangeOver (s : State) (x : Exchange) : State :=
  { s with
    now := max s.now (x.since + 1000)
    lens := { s.lens with
      exchange := none
      previous := match x.request with
        | .message _ => .message
        | _ => .other } }

/-- R104, 11.4: a request frame, its bytes followed by their sum modulo 256. -/
def framed (body : List Byte) : List Byte := body ++ [body.foldl (· + ·) 0]

/-- R104: the lens controller of s with an exchange for request r just begun. -/
def withExchange (s : State) (l : Lens) (r : LensRequest) (body : List Byte) : State :=
  { s with lens := { l with exchange := some { request := r, frame := framed body, since := s.now, judgeStop := false } } }

/-- R104, R107, R110, R113, R114: what the arbiter has made of s. Nothing begins while an exchange is in flight or the lens is ABSENT. An
IDENTIFYING lens is sent a pending IDENT, an UNRESPONSIVE one a pending poll. A READY one is sent STOP first; then the head message and
the drive slot's target in turn, the target while no shot is CAPTURING and with the speed class of its distance; then STATUS. That what is
pending is cleared as its exchange begins is the model's choice (log 15). -/
structure ArbiterChose (s t : State) : Prop where
  busy : s.lens.exchange.isSome = true ∨ s.lens.state = .absent → t = s
  ident : s.lens.exchange = none → s.lens.state = .identifying →
    t = if s.lens.identPending then withExchange s { s.lens with identPending := false } .ident [1] else s
  poll : s.lens.exchange = none → s.lens.state = .unresponsive →
    t = if s.lens.pollPending then
        (if s.lens.info.isSome then withExchange s { s.lens with pollPending := false } .status [2]
          else withExchange s { s.lens with pollPending := false } .ident [1])
      else s
  stop : s.lens.exchange = none → s.lens.state = .ready → s.lens.stopPending = true →
    t = withExchange s { s.lens with stopPending := false } .stop [4]
  message : s.lens.exchange = none → s.lens.state = .ready → s.lens.stopPending = false →
    ∀ m more, s.lens.messages = m :: more →
      (s.lens.previous ≠ .message ∨ s.lens.drive = none ∨ capturingCount s ≠ 0) →
      t = withExchange s { s.lens with messages := more } (.message m) ([m.kind, BitVec.ofNat 8 m.data.length] ++ m.data)
  drive : s.lens.exchange = none → s.lens.state = .ready → s.lens.stopPending = false →
    ∀ target r speed, s.lens.drive = some target → s.lens.report = some r → capturingCount s = 0 →
      (s.lens.messages = [] ∨ s.lens.previous = .message) → speed = speedClass (absDiff target r.position) →
      t = withExchange s { s.lens with drive := none } (.drive target speed)
        ([3] ++ leBytes 2 target ++ [BitVec.ofNat 8 speed])
  status : s.lens.exchange = none → s.lens.state = .ready → s.lens.stopPending = false → s.lens.messages = [] →
    (s.lens.drive = none ∨ capturingCount s ≠ 0) →
    t = if s.lens.statusPending then withExchange s { s.lens with statusPending := false } .status [2] else s

/-- R113, R180: the LENS REPLY notice of message m with a status code and the reply's data. -/
def replyNotice (m : LensMessage) (code : Byte) (data : List Byte) : Notice :=
  { kind := .lensReply, window := 0xFF, seq := 0, subject := m.tag,
    details := [code, BitVec.ofNat 8 data.length] ++ padTo 8 data, fault := none }

/-! ### The attention line -/

/-- R174, R175: the attention condition, of value c, has been evaluated at the time `now` by the Notice Unit u, which has become v. In
LEVEL mode the line follows it; in PULSE mode its beginning to stand asserts the line for the pulse length, and nothing else moves the
line. -/
structure AttentionEvaluated (u : NoticeUnit) (c : Bool) (now : Nat) (v : NoticeUnit) : Prop where
  standing : v.standing = c
  level : u.mode = .level → v.line = c ∧ v.pulse = u.pulse
  rises : u.mode = .pulse → u.standing = false → u.pulse = .stopped → c = true →
    v.line = true ∧ v.pulse = .running (now + u.pulseLength)
  keeps : u.mode = .pulse → (u.standing = true ∨ u.pulse ≠ .stopped ∨ c = false) → v.line = u.line ∧ v.pulse = u.pulse

/-! ### Notices that find a place -/

/-- The notice n, handed over in s behind at most k lines, has been written at the write index with its number, where there are
places for all of them. -/
def NoticeRecorded (k : Nat) (n : Notice) (s t : State) : Prop :=
  MemoryCanonical s → s.notice.writeIndex < 256 → s.port.work = [] → s.port.writes.length + k + 2 ≤ 32 →
  unconsumedCount s < 255 → t.notice.number = (s.notice.number + 1) % 65536 ∧
    ∀ i, i < 32 → t.mem.read (slotAddr s s.notice.writeIndex + i) = (noticeBytes n s.notice.number).getD i 0

/-! ### Views -/

/-- R70 steps 1 and 3: bank k is IDLE once the followed view has been dropped. -/
def bankComesFree (s : State) (k : BankId) : Prop :=
  (s.bank k).state = .idle ∨ s.view.followed.map Followed.bank = some k

/-! ### Where a command has its effect -/

/-- The oldest waiting request is the write r, and the started part may take it (R50). -/
structure TakesWrite (s : State) (r : Request) (rest : List Request) (data : List Byte) (mask : BitVec 64) : Prop where
  waiting : s.link.waiting = r :: rest
  kind : r.kind = .write data mask
  phase : s.phase = .started
  place : s.port.pass.length < Config.passThroughPlaces

/-- The oldest waiting request is the read r, and the started part may take it (R50). -/
structure TakesRead (s : State) (r : Request) (rest : List Request) : Prop where
  waiting : s.link.waiting = r :: rest
  kind : r.kind = .read
  phase : s.phase = .started
  place : s.port.pass.length < Config.passThroughPlaces

/-- An order names the shot in window w (R38). -/
structure Names (s : State) (o : OrderRecord) (w : Fin 64) : Prop where
  window : o.window = w.val
  open_ : (s.shot w).state ≠ .free
  seq : (s.shot w).seq = o.seq

/-! ### Soundness -/

/-- The queues hold no more than their places: the Memory Port's three (R56), the tap FIFO (R67), the lens message queue (R100)
and the replay queue (R131). -/
structure WithinPlaces (s : State) : Prop where
  pass : s.port.pass.length ≤ Config.passThroughPlaces
  writes : s.port.writes.length ≤ Config.writePlaces
  reads : s.port.reads.length ≤ Config.readPlaces
  fifo : s.taps.fifo.length ≤ Config.fifoPlaces
  messages : s.lens.messages.length ≤ Config.messagePlaces
  jobs : s.engine.queue.length ≤ Config.replayPlaces

/-- The ring indices lie in their ranges (R166, R170). -/
structure IndicesInRange (s : State) : Prop where
  post : s.order.post < 64
  taken : s.order.taken < 64
  write : s.notice.writeIndex < 256
  consumed : s.notice.consumedIndex < 256
  number : s.notice.number < 65536

/-- R48: the credits that the system processor holds and the occupied slots make up the 32 slots. -/
def CreditsBalance (s : State) : Prop := s.link.credits + slotsUsed s = Config.linkSlots

/-- R32: the sequence numbers of shots that are not FREE are distinct, and all lie below the counter unless it is exhausted. -/
structure SequenceSound (s : State) : Prop where
  below : ∀ w, (s.shot w).state ≠ .free → 1 ≤ (s.shot w).seq ∧
    (s.table.seqCounter = 0 ∨ (s.shot w).seq < s.table.seqCounter)
  distinct : ∀ v w, (s.shot v).state ≠ .free → (s.shot w).state ≠ .free → (s.shot v).seq = (s.shot w).seq → v = w

/-- R12: the granules in the maps of all windows. -/
def allMapped (s : State) : List Nat := (List.finRange 64).flatMap fun w => mappedGranules (s.mapsOf w)

/-- R12, R13: each granule of the pool stands exactly once in the free queue or in a map, so that both together are as many as the
pool's size and none stands twice; the reservations are covered by free granules, so that available is not negative; and a FREE
window holds no granule, no profile copy and no reservation. -/
structure PoolSound (s : State) : Prop where
  accounted : (s.pool.free ++ allMapped s).Perm ((List.range s.pool.size).map fun i => s.pool.first + i)
  covered : totalReservation s ≤ freeCount s
  free : ∀ w, (s.shot w).state = .free →
    s.mapsOf w = emptyMaps ∧ (s.shot w).copy = none ∧ (s.shot w).reservation = 0

/-- R110: a DRIVE exchange is in flight. -/
def driving (s : State) : Bool :=
  match s.lens.exchange with
  | some x => match x.request with
    | .drive _ _ => true
    | _ => false
  | none => false

/-- R104: an exchange that is in flight in t has begun since s. -/
def ExchangeBegan (s t : State) : Prop :=
  match t.lens.exchange with
  | none => False
  | some x => ∀ y, s.lens.exchange = some y → y.request ≠ x.request ∨ y.since ≠ x.since

/-- A run of k steps that meets neither a fault nor a refusal. -/
def RunsSafely (k : Nat) (s : State) : Prop := ∃ t, core.run k s = .next t

end Sys2Proof.Machine
end

