-- ==== Sys2Proof/Certificates/Slice0/Obligations.lean ====
section
/-! DEFINITION. The statements about the part. -/

open Sys2Proof Sys2Proof.Machine

/-! ### Steps, reset and the laws that every step keeps -/

/-- A step carries out the command at the front of the queue with the rest of the queue behind it. The model's choice (log 5):
with no command waiting, a step lets a microsecond of the reference clock pass. -/
def Obligations.StepRunsFrontCommand : Prop :=
  (∀ (c : Instr) (rest : List Instr) (s : State),
    step { s with pending := c :: rest } = exec c { s with pending := rest }) ∧
  ∀ s : State, s.pending = [] → step s = .next { s with now := s.now + 1 }

/-- R177: power-on reset puts every block in its reset state. The straps are sampled; the pin's level and the queue of commands
are the outside's. That a bank's recorded view and setup and the model's own grid-change mark are cleared with it is the model's
choice (log 8). -/
def Obligations.PowerOnResetValues : Prop :=
  ∀ (caSel memSize : BitVec 2) (s : State), ∃ t, exec (.powerOnReset caSel memSize) s = .next t ∧
    t.phase = .initialising ∧ t.caSel = caSel ∧ t.memSize = memSize ∧ t.lensPin = s.lensPin ∧ t.pending = s.pending ∧
    (∀ w, t.shot w = freeShot) ∧ (∀ w g, t.rawEntry w g = none ∧ t.previewEntry w g = none) ∧
    t.pool.size = 0 ∧ t.pool.free = [] ∧ t.pool.low = 0 ∧ t.pool.high = 0 ∧ t.pool.armed = true ∧
    (∀ n, t.table.profiles.get n = none) ∧ t.table.active = 0 ∧ t.table.seqCounter = 1 ∧ t.table.lastOpened = 63 ∧
    t.table.cursor = none ∧ t.table.admissible = false ∧ t.link.credits = 32 ∧ t.link.waiting = [] ∧ t.link.ready = [] ∧
    t.port.pass = [] ∧ t.port.writes = [] ∧ t.port.reads = [] ∧ t.taps.fifo = [] ∧ (∀ i, t.taps.contexts.get i = none) ∧
    t.view.followed = none ∧ t.view.sequence = 0 ∧ t.view.skipped = 0 ∧ t.focus.setup = none ∧
    (∀ z, t.focus.zones.get z = noDataZone) ∧ t.focus.primary = none ∧ t.focus.mode = .off ∧ t.focus.follow = .idle ∧
    t.focus.candidates = 0 ∧ t.focus.bankA = idleBank ∧ t.focus.bankB = idleBank ∧ t.lens.state = .absent ∧
    t.lens.info = none ∧ t.lens.report = none ∧ t.lens.timeouts = 0 ∧ t.lens.exchange = none ∧ t.lens.drive = none ∧
    t.lens.messages = [] ∧ t.lens.previous = .none ∧ t.lens.statusPending = false ∧ t.lens.stopPending = false ∧
    t.lens.identPending = false ∧ t.lens.pollPending = false ∧ t.lens.identRetry = .stopped ∧ t.lens.poll = .stopped ∧
    t.engine.activity = .idle ∧ t.engine.suspend = false ∧ t.engine.stop = none ∧ t.engine.queue = [] ∧
    (∀ k, t.engine.tones.get k = .replicate 257 0) ∧ (∀ i, t.verify.contexts.get i = none) ∧ t.tether.queue = [] ∧
    t.tether.head = none ∧ (∀ n, (t.tether.rules.get n).enabled = false) ∧ t.order.post = 0 ∧ t.order.taken = 0 ∧ t.order.phase = .idle ∧
    t.notice.writeIndex = 0 ∧ t.notice.consumedIndex = 0 ∧ t.notice.number = 0 ∧ t.notice.overflow = 0 ∧
    t.notice.unconsumed = [] ∧ (∀ c, t.notice.outstanding.get c = .clear) ∧ t.notice.batch = 1 ∧ t.notice.age = 0 ∧ t.notice.mode = .level ∧
    t.notice.pulseLength = 1 ∧ t.plainFaults = ⟨0, 0, 0, 0, 0, 0⟩

/-- The state after reset meets every invariant below. -/
def Obligations.ResetStateSound : Prop :=
  MemoryCanonical State.reset ∧ WithinPlaces State.reset ∧ IndicesInRange State.reset ∧ CreditsBalance State.reset ∧
  SequenceSound State.reset ∧ PoolSound State.reset

/-- Every step keeps the memory in its canonical form. -/
def Obligations.MemoryCanonicalKept : Prop :=
  ∀ s t : State, MemoryCanonical s → step s = .next t → MemoryCanonical t

/-- Every step keeps every queue within its places: 32, 32 and 16 in the Memory Port (R56), 128 in the tap FIFO (R67), 8 lens
messages (R100) and 16 replay jobs (R131); and the ring indices in their ranges (R166, R170). -/
def Obligations.QueuesAndIndicesKeepBounds : Prop :=
  ∀ s t : State, step s = .next t →
    (WithinPlaces s → WithinPlaces t) ∧ (IndicesInRange s → IndicesInRange t)

/-- R12, R13: every step keeps the pool's granules accounted for: each stands once in the free queue or in a map, and the
reservations are covered by free granules, so that available is never negative. -/
def Obligations.PoolGranulesStayAccounted : Prop :=
  ∀ s t : State, PoolSound s → step s = .next t → PoolSound t

/-- Every step keeps credits and occupied slots at 32 together (R48). -/
def Obligations.CreditsBalanceKept : Prop :=
  ∀ s t : State, CreditsBalance s → step s = .next t → CreditsBalance t

/-- R114: no DRIVE exchange begins in a step that ends with a shot CAPTURING. -/
def Obligations.NoDriveBeginsWhileCapturing : Prop :=
  ∀ s t : State, step s = .next t → driving t = true → ExchangeBegan s t → capturingCount t = 0

/-- R32: every step keeps the sequence numbers of shots that are not FREE distinct and below the counter. -/
def Obligations.SequenceNumbersStayDistinct : Prop :=
  ∀ s t : State, SequenceSound s → step s = .next t → SequenceSound t

/-! ### Start-up -/

/-- R177, R178: from power-on, the end of start-up begins the part's work with STARTED as notice 0 and the attention line
asserted, or is a strap fault that writes nothing and holds the line. -/
def Obligations.StartUpEnds : Prop :=
  ∀ (caSel memSize : BitVec 2) (pin : Bool) (pending : List Instr),
    (controlInside (State.powerOn caSel memSize pin pending) = true →
      ∃ t, exec .startUpComplete (State.powerOn caSel memSize pin pending) = .next t ∧ t.phase = .started ∧
        t.notice.writeIndex = 1 ∧ t.notice.number = 1 ∧ t.notice.line = true ∧
        t.mem.read (controlBase caSel + Config.cursorPage) = 1 ∧
        t.mem.read (controlBase caSel + Config.noticeRing + 10) = BitVec.ofNat 8 caSel.toNat ∧
        t.mem.read (controlBase caSel + Config.noticeRing + 11) = BitVec.ofNat 8 memSize.toNat ∧
        (pin = true → t.lens.state = .identifying) ∧ (pin = false → t.lens.state = .absent) ∧ t.pending = pending) ∧
    (controlInside (State.powerOn caSel memSize pin pending) = false →
      ∃ t, exec .startUpComplete (State.powerOn caSel memSize pin pending) = .next t ∧ t.phase = .strapFault ∧
        t.notice.line = true ∧ t.mem = [] ∧ t.port.writes = [] ∧ t.lens.state = .absent)

/-! ### The link -/

/-- R58, R59: a link reset frees every slot, lets no response to an earlier read be sent, returns the credits to 32, and leaves
everything else as it is. -/
def Obligations.LinkResetFreesSlots : Prop :=
  ∀ s : State, ∃ t, exec .linkReset s = .next t ∧ slotsUsed t = 0 ∧ t.link.waiting = [] ∧ t.link.ready = [] ∧
    t.link.credits = 32 ∧ t.link.lastSent = s.link.lastSent ∧
    { t with link := s.link, port := s.port } = s ∧
    { t.port with pass := s.port.pass, passFlight := s.port.passFlight } = s.port ∧
    t.port.pass = s.port.pass.map silence ∧
    t.port.passFlight = s.port.passFlight.map fun r => { r with respond := false }

/-- R48: a request takes a free slot and a credit, and is discarded when all 32 slots are occupied. The link carries no write
without its 64 bytes (R47): the model refuses one. -/
def Obligations.RequestArrivesInSlot : Prop :=
  ∀ (r : Request) (s : State),
    (r.wf = true → slotsUsed s < 32 → exec (.requestArrives r) s =
      .next { s with link := { s.link with waiting := s.link.waiting ++ [r], credits := s.link.credits - 1 } }) ∧
    (r.wf = true → 32 ≤ slotsUsed s → exec (.requestArrives r) s = .next s) ∧
    (r.wf = false → exec (.requestArrives r) s = .refused .illFormed)

/-- R52: a plain write that no follower takes up is stored byte by byte as its mask selects, leaves its slot with a credit,
and changes nothing else. That the model's memory shows the write from its entry into the memory path on is its reading of R55
(log 3). -/
def Obligations.PlainWriteStored : Prop :=
  ∀ (s : State) (r : Request) (rest : List Request) (data : List Byte) (mask : BitVec 64),
    MemoryCanonical s → TakesWrite s r rest data mask → classify (lineAddr r) = .plain →
    plainCheck s (lineAddr r) = none →
    (sourceClass r.tag = .capture → ∀ f, s.focus.setup = some f → viewLineOf f (lineAddr r) = none) →
    (sourceClass r.tag = .processor → lineAddr r ≠ controlBase s.caSel + Config.postIndexAt ∧
      lineAddr r ≠ controlBase s.caSel + Config.consumedIndexAt) →
    ∃ t, exec .takeWrite s = .next t ∧ { t with link := s.link, port := s.port, mem := s.mem } = s ∧
      t.link = { s.link with waiting := rest, credits := s.link.credits + 1 } ∧
      t.port = { s.port with
        pass := s.port.pass ++ [{ addr := lineAddr r, kind := .write data mask, entry := s.port.nextEntry }]
        nextEntry := s.port.nextEntry + 1 } ∧
      ∀ a, t.mem.read a =
        if lineAddr r ≤ a ∧ a < lineAddr r + 64 ∧ mask.getLsbD (a - lineAddr r) then data.getD (a - lineAddr r) 0
        else s.mem.read a

/-- R8, R10, R11, R51: a write to unassigned space, beyond installed DRAM or behind the pool fence is dropped: its class's
counter rises, one PLAIN FAULT is handed over while none of the class stands unconsumed, and nothing else changes. In a strap fault
every write is dropped without a record (R178). -/
def Obligations.AbortedPlainWriteDropped : Prop :=
  ∀ (s : State) (r : Request) (rest : List Request) (data : List Byte) (mask : BitVec 64),
    (∀ k, TakesWrite s r rest data mask →
      ((classify (lineAddr r) = .unassigned ∧ k = .unassigned) ∨
        (classify (lineAddr r) = .plain ∧ plainCheck s (lineAddr r) = some k)) →
      ∃ t, exec .takeWrite s = .next t ∧ PlainFaulted (sourceClass r.tag) k (freeWriteSlot s rest) t) ∧
    (s.phase = .strapFault → s.link.waiting = r :: rest → r.kind = .write data mask → s.port.pass.length < 32 →
      exec .takeWrite s =
        .next { s with link := { s.link with waiting := rest, credits := s.link.credits + 1 } })

/-- R3, R5, R8, R9, R29: a write to shot space that the key table does not permit, a CAPTURE write beyond the raw length, and a
write to preview space are dropped and counted against the shot; a write to a FREE window that is no open attempt, and one to its
preview, is a plain-space fault. No raw granule changes. -/
def Obligations.KeylessShotWriteDropped : Prop :=
  ∀ (s : State) (r : Request) (rest : List Request) (data : List Byte) (mask : BitVec 64) (w : Fin 64) (o : Nat),
    TakesWrite s r rest data mask →
    (classify (lineAddr r) = .shot w o →
      ((s.shot w).state = .sealed ∨ (s.shot w).state = .discarding ∨
        ((s.shot w).state = .capturing ∧ sourceClass r.tag ≠ .capture) →
        ∃ t, exec .takeWrite s = .next t ∧ ShotFaulted w (sourceClass r.tag) .access o (freeWriteSlot s rest) t) ∧
      ((s.shot w).state = .capturing → sourceClass r.tag = .capture → (s.shot w).rawLength ≤ o →
        ∃ t, exec .takeWrite s = .next t ∧ ShotFaulted w (sourceClass r.tag) .length o (freeWriteSlot s rest) t) ∧
      ((s.shot w).state = .free → ¬(sourceClass r.tag = .capture ∧ mask = fullMask ∧ o = 0) →
        ∃ t, exec .takeWrite s = .next t ∧ PlainFaulted (sourceClass r.tag) .notOpen (freeWriteSlot s rest) t)) ∧
    (classify (lineAddr r) = .preview w o →
      ((s.shot w).state ≠ .free →
        ∃ t, exec .takeWrite s = .next t ∧ ShotFaulted w (sourceClass r.tag) .access o (freeWriteSlot s rest) t) ∧
      ((s.shot w).state = .free →
        ∃ t, exec .takeWrite s = .next t ∧ PlainFaulted (sourceClass r.tag) .notOpen (freeWriteSlot s rest) t))

/-- R29: a refused open attempt is dropped: the window stays FREE, the pool's counts stay, no fault is recorded, and only the
CAPTURE REFUSED notice is handed over. -/
def Obligations.RefusedOpenChangesNothing : Prop :=
  ∀ (s : State) (r : Request) (rest : List Request) (data : List Byte) (w : Fin 64) (e : OpenRefusal),
    TakesWrite s r rest data fullMask → classify (lineAddr r) = .shot w 0 → sourceClass r.tag = .capture →
    (s.shot w).state = .free → judgeOpen s = .error e →
    ∃ t, exec .takeWrite s = .next t ∧ OnlyReports [.cursor 3] 1 (freeWriteSlot s rest) t

/-- R6, R15, R30, R31, R32: an admitted open attempt; what the Development Engine does at it (R127, R129, R134): the inline side free,
an IDLE engine begins the inline job and a REPLAY one is asked to suspend, and otherwise a DEVELOP job joins the replay queue; and what
the Lens Line Controller does (R111): a lens that moves, or whose DRIVE is in flight, is to be stopped. -/
def Obligations.AdmittedOpenInitialisesShot : Prop :=
  ∀ (s : State) (r : Request) (rest : List Request) (data : List Byte) (w : Fin 64) (p : Profile) (n : Nat)
    (more : List Nat),
    TakesWrite s r rest data fullMask → classify (lineAddr r) = .shot w 0 → sourceClass r.tag = .capture →
    (s.shot w).state = .free → judgeOpen s = .ok p → s.rawEntry w 0 = none → s.pool.free = n :: more → 1 ≤ p.need →
    ∃ t, exec .takeWrite s = .next t ∧ (t.shot w).state = .capturing ∧ (t.shot w).seq = s.table.seqCounter ∧
      (t.shot w).copy = some { slot := s.table.active, profile := p } ∧ (t.shot w).rawLength = p.rawLength ∧
      (t.shot w).reservation = p.need - 1 ∧ (t.shot w).rawMapped = 1 ∧ (t.shot w).previewMapped = 0 ∧
      (t.shot w).snapshot = takeSnapshot s ∧ (t.shot w).timer = captureTimer s.now p ∧
      (t.shot w).rating = p.rating ∧ (t.shot w).storyKey = p.storyKey ∧ t.rawEntry w 0 = some n ∧ t.pool.free = more ∧
      t.table.seqCounter = nextSeq s.table.seqCounter ∧ t.table.lastOpened = w ∧
      (∀ v, v ≠ w → (t.shot v).state = (s.shot v).state ∧ (t.shot v).seq = (s.shot v).seq) ∧
      (contextOf s w = none → s.taps.fifo.length < 128 →
        (p.developed = false → s.engine.activity ≠ .idle → (t.shot w).dev = .none ∧ t.engine = s.engine) ∧
        (p.developed = true → (∀ v, (s.shot v).dev ≠ .inline) →
          (t.shot w).dev = .inline ∧ t.taps.fifo = s.taps.fifo ++ [{ window := w, line := 0, data := data }] ∧
          (s.engine.activity = .idle → t.engine = { s.engine with activity := .inline w, run := freshRun }) ∧
          (s.engine.activity = .replay → t.engine = { s.engine with suspend := true })) ∧
        (p.developed = true → (∃ v, (s.shot v).dev = .inline) → s.engine.activity ≠ .idle →
          (s.engine.queue.length < 16 → (t.shot w).dev = .queued ∧ (t.shot w).reason = some .engineBusy ∧
            t.engine = { s.engine with queue := s.engine.queue ++
              [{ window := w, seq := s.table.seqCounter, kind := .develop, set := some p.devSet, nextRow := 0,
                 begun := false, saved := none }] }) ∧
          (16 ≤ s.engine.queue.length → (t.shot w).dev = .failed ∧ (t.shot w).reason = some .queueFull ∧
            t.engine = s.engine))) ∧
      (s.lens.state ≠ .ready → t.lens = s.lens) ∧
      (∀ report, s.lens.state = .ready → s.lens.report = some report →
        (report.moving = true →
          (s.lens.exchange = none → t.lens = { s.lens with
            stopPending := false
            exchange := some { request := .stop, frame := [4, 4], since := s.now, judgeStop := false } }) ∧
          (s.lens.exchange.isSome = true → t.lens = { s.lens with stopPending := true })) ∧
        (report.moving = false →
          (∀ x target speed, s.lens.exchange = some x → x.request = .drive target speed →
            t.lens = { s.lens with exchange := some { x with judgeStop := true } }) ∧
          ((∀ x target speed, s.lens.exchange = some x → x.request ≠ .drive target speed) → t.lens = s.lens)))

/-- R4, R6, R34, R50, R62 to R68, R82, R97: what a CAPTURE write to a CAPTURING shot, not its final line, does. It enters the memory path
where the window's map says and restarts the capture timer. An empty raw entry is filled first: the head of the free queue is mapped
against the shot's reservation. At a context that follows, a line in order advances the context, its checksum and its
still accumulation, joins the tap FIFO of an INLINE shot, and changes nothing else; the last line of the
still-check range makes the focus check; and at a full FIFO the inline work is put off to a DEVELOP job. Out of order, or with a
partial mask, it is stored and the readout is disordered. At a context that no longer follows it is only stored. That the model's memory
shows the write from its entry into the memory path on is its reading of R55 (log 3). -/
def Obligations.InOrderLineAdvancesTap : Prop :=
  ∀ (s v : State) (r : Request) (rest : List Request) (data : List Byte) (mask : BitVec 64) (w : Fin 64) (o n a g l : Nat)
    (c : TapContext) (p : Profile),
    TakesWrite s r rest data mask → classify (lineAddr r) = .shot w o → sourceClass r.tag = .capture →
    (s.shot w).state = .capturing → (s.shot w).profile = some p → o < (s.shot w).rawLength →
    o + 64 ≠ (s.shot w).rawLength → contextOf s w = some c → g = o / Config.granule → l = o / 64 →
    a = n * Config.granule + o % Config.granule → v = lineStored s rest w p a data mask →
    (∀ more res, MemoryCanonical s → (s.mapsOf w).raw[g]? = some none → s.pool.free = n :: more →
      (s.shot w).reservation = res + 1 →
      ∃ t k, exec .takeWrite s = .next t ∧ t.rawEntry w g = some n ∧ (∀ h, h ≠ g → t.rawEntry w h = s.rawEntry w h) ∧
        (t.mapsOf w).preview = (s.mapsOf w).preview ∧ t.pool.free = more ∧ (t.shot w).reservation = res ∧
        (t.shot w).rawMapped = (s.shot w).rawMapped + 1 ∧ (t.shot w).timer = captureTimer s.now p ∧
        (∀ u, u ≠ w → t.mapsOf u = s.mapsOf u ∧ (t.shot u).reservation = (s.shot u).reservation) ∧
        t.port.pass = s.port.pass ++ [{ addr := a, kind := .write data mask, entry := k }] ∧
        ((c.following = true → mask = fullMask ∧ c.next = l ∧ ¬endsStillRange p c l ∧
            (c.inlineFeed = true → s.taps.fifo.length < 128)) →
          contextOf t w = some (if c.following then contextAfter p c l data else c) ∧ OtherContextsKept s t w ∧
          t.taps.fifo = (if c.following && c.inlineFeed then s.taps.fifo ++ [{ window := w, line := l, data := data }]
            else s.taps.fifo) ∧
          (∀ b, a ≤ b → b < a + 64 → mask.getLsbD (b - a) = true → t.mem.read b = data.getD (b - a) 0) ∧
          OnlyReports [.mirror w 1, .cursor 2] 0
            { v with
              pool := { s.pool with free := more }
              maps := t.maps
              shots := v.shots.set w.val { v.shot w with reservation := res, rawMapped := (s.shot w).rawMapped + 1 }
              taps := t.taps
              port := { s.port with pass := t.port.pass } } t)) ∧
    (s.rawEntry w g = some n → c.following = false → exec .takeWrite s = .next v) ∧
    (s.rawEntry w g = some n → c.following = true → mask = fullMask → c.next = l →
      (¬endsStillRange p c l → (c.inlineFeed = true → s.taps.fifo.length < 128) →
        ∃ t, exec .takeWrite s = .next t ∧ { t with taps := s.taps } = v ∧
          contextOf t w = some (contextAfter p c l data) ∧ OtherContextsKept s t w ∧
          t.taps.fifo = (if c.inlineFeed then s.taps.fifo ++ [{ window := w, line := l, data := data }] else s.taps.fifo) ∧
          (MemoryCanonical s → ∀ b, t.mem.read b =
            if a ≤ b ∧ b < a + 64 ∧ fullMask.getLsbD (b - a) then data.getD (b - a) 0 else s.mem.read b)) ∧
      (∀ z acc f m, c.range = some z → c.still = some acc → stillLine p z.val l = true →
        lastStillLine p z.val = some l → c.inlineFeed = false → s.focus.setup = some f →
        m = measure (addStillLine p l data acc).sums f.search f.cmin p.kz →
        ∃ t, exec .takeWrite s = .next t ∧
          contextOf t w = some { c with next := l + 1, crc := crcBytes c.crc data, still := none } ∧
          OtherContextsKept s t w ∧ t.taps.fifo = s.taps.fifo ∧
          OnlyReports [.mirror w 2, .cursor 3] 1
            ({ v with taps := t.taps }.modShot w fun x =>
              { x with focusCheck := some { state := checkStateOf f m, q := m.q, conf := m.conf } }) t ∧
          NoticeRecorded 1
            { kind := .focusCheck, window := windowByte w, seq := (s.shot w).seq, subject := acc.zone.val,
              details := byte1 (checkStateOf f m).code ++ signedBytes m.q ++ byte1 m.conf ++ signedBytes m.steps ++
                byte1 Origin.inline.code
              fault := none } s t) ∧
      (¬endsStillRange p c l → c.inlineFeed = true → 128 ≤ s.taps.fifo.length → s.engine.activity = .replay →
        ∃ t, exec .takeWrite s = .next t ∧ contextOf t w = some { contextAfter p c l data with inlineFeed := false } ∧
          t.taps.fifo = s.taps.fifo.filter (fun e => e.window ≠ w) ∧ (∀ u, u ≠ w → t.shot u = s.shot u) ∧
          t.maps = s.maps ∧ t.pool = s.pool ∧ t.engine.suspend = false ∧
          (s.engine.queue.length < 16 →
            t.shot w = { v.shot w with dev := .queued, reason := some .overflow } ∧
            t.engine.queue = s.engine.queue ++
              [{ window := w, seq := (s.shot w).seq, kind := .develop, set := (s.shot w).devSet, nextRow := 0,
                 begun := false, saved := none }]) ∧
          (16 ≤ s.engine.queue.length →
            t.shot w = { v.shot w with
              dev := .failed, reason := some .queueFull, checkOnly := false, hist := zeroHist, clip := ⟨0, 0, 0⟩ } ∧
            t.engine.queue = s.engine.queue))) ∧
    (s.rawEntry w g = some n → c.following = true → ¬(mask = fullMask ∧ c.next = l) → s.engine.activity = .replay →
      ∃ t, exec .takeWrite s = .next t ∧
        contextOf t w = some { c with following := false, crc := crcInit, still := none, inlineFeed := false } ∧
        OtherContextsKept s t w ∧ Disordered s t w (v.shot w) ∧
        ((s.shot w).dev ≠ .inline → hasJob s w = true →
          NoticeRecorded 1
            { kind := .tapDisorder, window := windowByte w, seq := (s.shot w).seq, subject := 0,
              details := leBytes 4 c.next ++ leBytes 4 l ++ byte1 (if mask = fullMask then 1 else 0) ++
                byte1 (s.shot w).dev.code
              fault := none } s t))

/-- R70 to R74, R92: what a CAPTURE write to line l of declared buffer i does at the view tap. A full write to line 0 drops the
followed view and follows the new one in bank A, or else bank B, or skips it; the next line of the followed view is accumulated,
and its last grid line hands the bank to measurement; any other write to the followed buffer drops the view; the rest is
disregarded. R108: at the start and at the last grid line of a followed view a READY lens is to be asked for its STATUS, and the arbiter
makes its choice, which LensExchangeEndJudged describes. -/
def Obligations.ViewStartFollowsInBankA : Prop :=
  ∀ (s : State) (r : Request) (rest : List Request) (data : List Byte) (mask : BitVec 64) (f : FocusSetup) (i l : Nat),
    TakesWrite s r rest data mask → classify (lineAddr r) = .plain → plainCheck s (lineAddr r) = none →
    sourceClass r.tag = .capture → s.focus.setup = some f → viewLineOf f (lineAddr r) = some (i, l) →
    ∃ t, exec .takeWrite s = .next t ∧ t.shots = s.shots ∧ t.maps = s.maps ∧ t.pool = s.pool ∧
      t.focus.zones = s.focus.zones ∧ t.view.lastGridLine = s.view.lastGridLine ∧
      (mask = fullMask → l = 0 → s.view.lastGridLine ≠ 0 →
        (∀ k, ((k = .a ∧ bankComesFree s .a) ∨ (k = .b ∧ ¬bankComesFree s .a ∧ bankComesFree s .b)) →
          t.view.followed = some { buffer := i, next := 1, bank := k } ∧
          t.view.sequence = (s.view.sequence + 1) % 2 ^ 32 ∧
          t.lens = (if s.lens.state = .ready then (arbitrate { s with lens := { s.lens with statusPending := true } }).lens
            else s.lens) ∧
          t.view.skipped = (if s.view.followed.isSome then (s.view.skipped + 1) % 2 ^ 32 else s.view.skipped) ∧
          t.bank k = { idleBank with
            state := .accumulating
            view := (s.view.sequence + 1) % 2 ^ 32
            atStart := s.lens.report.map PositionReport.position
            sums := if gridLine f 0 then addViewLine f 0 data idleBank.sums else idleBank.sums } ∧
          t.bank k.other =
            (if s.view.followed.map Followed.bank = some k.other then idleBank else s.bank k.other)) ∧
        (¬bankComesFree s .a → ¬bankComesFree s .b →
          t.view = { s.view with
            sequence := (s.view.sequence + 1) % 2 ^ 32, skipped := (s.view.skipped + 1) % 2 ^ 32 } ∧
          t.focus = s.focus ∧ t.lens = s.lens)) ∧
      (¬(mask = fullMask ∧ l = 0) →
        (∀ v, s.view.followed = some v → v.buffer = i →
          t.view.sequence = s.view.sequence ∧ t.bank v.bank.other = s.bank v.bank.other ∧
          (mask = fullMask → l = v.next → l ≠ s.view.lastGridLine →
            t.view = { s.view with followed := some { v with next := l + 1 } } ∧ t.lens = s.lens ∧
            t.bank v.bank = { s.bank v.bank with
              sums := if gridLine f l then addViewLine f l data (s.bank v.bank).sums else (s.bank v.bank).sums }) ∧
          (mask = fullMask → l = v.next → l = s.view.lastGridLine →
            t.view = { s.view with followed := none } ∧
            t.lens = (if s.lens.state = .ready then (arbitrate { s with lens := { s.lens with statusPending := true } }).lens
              else s.lens) ∧
            ((s.bank v.bank.other).state = .measuring → t.bank v.bank = { s.bank v.bank with
              state := .full
              atLast := s.lens.report.map PositionReport.position
              sums := if gridLine f l then addViewLine f l data (s.bank v.bank).sums else (s.bank v.bank).sums }) ∧
            ((s.bank v.bank.other).state ≠ .measuring → t.bank v.bank = { s.bank v.bank with
              state := .measuring
              setup := some f
              gridChanged := false
              atLast := s.lens.report.map PositionReport.position
              sums := if gridLine f l then addViewLine f l data (s.bank v.bank).sums else (s.bank v.bank).sums })) ∧
          (¬(mask = fullMask ∧ l = v.next) →
            t.view = { s.view with followed := none, skipped := (s.view.skipped + 1) % 2 ^ 32 } ∧
            t.bank v.bank = idleBank ∧ t.lens = s.lens)) ∧
        ((∀ v, s.view.followed = some v → v.buffer ≠ i) → t.view = s.view ∧ t.focus = s.focus ∧ t.lens = s.lens))

/-- R53, R166, R167: a whole-word PROCESSOR write of the post index gives the Order Unit a new post index, and an order is taken
when one is pending and none in progress: its record is read at the taken index, at once where the internal-read queue has a place and
no read is held. A write without the whole word is stored and gives nothing. That a read's data stands with its entry is the model's
reading of R55 (log 3). -/
def Obligations.PostIndexWriteReachesOrderUnit : Prop :=
  ∀ (s : State) (r : Request) (rest : List Request) (data : List Byte) (mask : BitVec 64),
    TakesWrite s r rest data mask → lineAddr r = controlBase s.caSel + Config.postIndexAt →
    plainCheck s (lineAddr r) = none → sourceClass r.tag = .processor →
    ∃ t, exec .takeWrite s = .next t ∧ t.order.taken = s.order.taken ∧ t.notice = s.notice ∧ t.shots = s.shots ∧
      t.pool = s.pool ∧
      (wordMasked mask = false → t.order = s.order ∧ t.port.reads = s.port.reads) ∧
      (wordMasked mask = true → t.order.post = field data 0 4 % 64 ∧
        (s.order.phase = .idle ∧ 0 < (field data 0 4 % 64 + 64 - s.order.taken) % 64 →
          t.order.phase = .fetching ∧
          (s.port.heldReads = [] → s.port.reads.length < 16 →
            ∃ e, t.port.reads = s.port.reads ++ [e] ∧ t.port.heldReads = [] ∧ e.purpose = .orderRecord ∧
              e.addr = controlBase s.caSel + 0x2000 + 64 * s.order.taken ∧ e.data = t.mem.readLine e.addr) ∧
          (s.port.heldReads ≠ [] ∨ 16 ≤ s.port.reads.length → t.port.reads = s.port.reads ∧
            t.port.heldReads =
              s.port.heldReads ++ [(.orderRecord, controlBase s.caSel + 0x2000 + 64 * s.order.taken)])) ∧
        (s.order.phase ≠ .idle ∨ (field data 0 4 % 64 + 64 - s.order.taken) % 64 = 0 →
          t.order.phase = s.order.phase ∧ t.port.reads = s.port.reads ∧ t.port.heldReads = s.port.heldReads))

/-- R172, R173: a consumed index within the unconsumed span consumes notices with their marks, and one outside it is disregarded.
With no drops to report the attention condition is evaluated. With drops counted and room for it, NOTICE OVERFLOW is written, urgent
and with the count, the count returns to 0, and the condition is evaluated then. Where the part's own work waits, the report waits
with it (log 9). -/
def Obligations.ConsumedIndexWriteConsumes : Prop :=
  ∀ (s : State) (r : Request) (rest : List Request) (data : List Byte) (mask : BitVec 64) (n left : Nat),
    TakesWrite s r rest data mask → lineAddr r = controlBase s.caSel + Config.consumedIndexAt →
    plainCheck s (lineAddr r) = none → sourceClass r.tag = .processor → wordMasked mask = true →
    n = consumedSpan s (field data 0 4) → left = (s.notice.writeIndex + 256 - field data 0 4 % 256) % 256 →
    ∃ t, exec .takeWrite s = .next t ∧ t.order.post = s.order.post ∧ t.shots = s.shots ∧ t.pool = s.pool ∧
      (unconsumedCount s < n → t.notice = s.notice) ∧
      (n ≤ unconsumedCount s →
        t.notice.consumedIndex = field data 0 4 % 256 ∧
        (s.notice.overflow = 0 ∨ 255 ≤ left → t.notice.writeIndex = s.notice.writeIndex ∧
          t.notice.overflow = s.notice.overflow ∧ t.notice.unconsumed = s.notice.unconsumed.drop n ∧
          t.notice.outstanding = s.notice.outstanding.map (passOutstanding s.notice.consumedIndex n) ∧
          AttentionEvaluated s.notice (attentionCondition t) s.now t.notice) ∧
        (0 < s.notice.overflow → left < 255 →
          (s.port.work = [] → s.port.writes.length < 32 →
            t.notice.overflow = 0 ∧ t.notice.number = (s.notice.number + 1) % 65536 ∧
            t.notice.writeIndex = (s.notice.writeIndex + 1) % 256 ∧
            t.notice.unconsumed = s.notice.unconsumed.drop n ++ [{ time := s.now, urgent := true }] ∧
            t.notice.outstanding = s.notice.outstanding.map (passOutstanding s.notice.consumedIndex n) ∧
            (MemoryCanonical s → s.notice.writeIndex < 256 → ∀ i, i < 32 →
              t.mem.read (slotAddr s s.notice.writeIndex + i) =
                (noticeBytes
                  { kind := .noticeOverflow, window := 0xFF, seq := 0, subject := 0,
                    details := leBytes 4 s.notice.overflow, fault := none } s.notice.number).getD i 0) ∧
            (s.port.writes.length + 2 ≤ 32 →
              AttentionEvaluated s.notice true s.now t.notice)) ∧
          (s.port.work ≠ [] → reportWaits t = true ∧ t.notice.overflow = s.notice.overflow ∧
            t.notice.standing = s.notice.standing ∧ t.notice.line = s.notice.line)))

/-- R50, R52, R55: a plain read enters the memory path with the data of every write before it and keeps its slot. That the
data stands with the entry is the model's reading of R55 (log 3). -/
def Obligations.PlainReadEntersMemoryPath : Prop :=
  ∀ (s : State) (r : Request) (rest : List Request),
    TakesRead s r rest → classify (lineAddr r) = .plain → plainCheck s (lineAddr r) = none →
    exec .takeRead s = .next { s with
      link := { s.link with waiting := rest }
      port := { s.port with
        pass := s.port.pass ++ [{
          addr := lineAddr r
          kind := .read { txn := r.txn, data := s.mem.readLine (lineAddr r), respond := true, accepted := none }
          entry := s.port.nextEntry }]
        nextEntry := s.port.nextEntry + 1 } }

/-- R3, R5, R8 to R11, R51, R54: a read of unassigned space, beyond installed DRAM, behind the pool fence or of a FREE window is
answered ABORTED with all-ones data and is a plain-space fault of its kind; a read of shot or preview space that its key, its length
or the preview's state does not permit is answered so and counted against its shot. Nothing else changes. In a strap fault every read is
answered so and no fault is recorded (R178). -/
def Obligations.AbortedPlainReadAnswered : Prop :=
  ∀ (s u : State) (r : Request) (rest : List Request) (c : SourceClass),
    c = sourceClass r.tag →
    u = { s with link := { s.link with
      waiting := rest, ready := s.link.ready ++ [{ txn := r.txn, data := List.replicate 64 0xFF, ok := false }] } } →
    (s.phase = .strapFault → s.link.waiting = r :: rest → r.kind = .read → s.port.pass.length < 32 →
      exec .takeRead s = .next u) ∧
    (∀ k, TakesRead s r rest → ((classify (lineAddr r) = .unassigned ∧ k = .unassigned) ∨
        (classify (lineAddr r) = .plain ∧ plainCheck s (lineAddr r) = some k)) →
      ∃ t, exec .takeRead s = .next t ∧ PlainFaulted c k u t) ∧
    (∀ w o, TakesRead s r rest → classify (lineAddr r) = .shot w o ∨ classify (lineAddr r) = .preview w o →
      (s.shot w).state = .free → ∃ t, exec .takeRead s = .next t ∧ PlainFaulted c .notOpen u t) ∧
    (∀ w o, TakesRead s r rest → classify (lineAddr r) = .shot w o →
      ((s.shot w).state = .discarding ∨ ((s.shot w).state = .capturing ∧ c ≠ .capture ∧ c ≠ .processor) ∨
        ((s.shot w).state = .sealed ∧ (c = .capture ∨ c = .other)) →
        ∃ t, exec .takeRead s = .next t ∧ ShotFaulted w c .access o u t) ∧
      (((s.shot w).state = .capturing ∧ (c = .capture ∨ c = .processor)) ∨
        ((s.shot w).state = .sealed ∧ c ≠ .capture ∧ c ≠ .other) → (s.shot w).rawLength ≤ o →
        ∃ t, exec .takeRead s = .next t ∧ ShotFaulted w c .length o u t)) ∧
    (∀ w o, TakesRead s r rest → classify (lineAddr r) = .preview w o → (s.shot w).state ≠ .free →
      (c = .capture ∨ c = .other ∨ (s.shot w).state = .discarding →
        ∃ t, exec .takeRead s = .next t ∧ ShotFaulted w c .access o u t) ∧
      (c ≠ .capture → c ≠ .other →
        ((s.shot w).state = .capturing ∨ ((s.shot w).state = .sealed ∧ (s.shot w).dev ≠ .done) →
          ∃ t, exec .takeRead s = .next t ∧ ShotFaulted w c .previewNotReady o u t) ∧
        ((s.shot w).state = .sealed → (s.shot w).dev = .done → (s.shot w).previewLength ≤ o →
          ∃ t, exec .takeRead s = .next t ∧ ShotFaulted w c .length o u t)))

/-- R3, R4, R5: a PROCESSOR or DISPLAY read of a SEALED shot, a CAPTURE or PROCESSOR read of a CAPTURING one, and a PROCESSOR, DISPLAY or
CARD read of the preview of a SEALED shot while its development is DONE go to DRAM where the window's map says, or are answered with
zeros from an empty entry, and change nothing else. That a read's data stands with its entry is the model's reading of R55 (log 3). -/
def Obligations.SealedShotReadServed : Prop :=
  ∀ (s : State) (r : Request) (rest : List Request) (w : Fin 64) (o : Nat) (entry : Option Nat),
    TakesRead s r rest →
    ((classify (lineAddr r) = .shot w o ∧ o < (s.shot w).rawLength ∧ entry = s.rawEntry w (o / Config.granule) ∧
        (((s.shot w).state = .sealed ∧ (sourceClass r.tag = .processor ∨ sourceClass r.tag = .display)) ∨
          ((s.shot w).state = .capturing ∧ (sourceClass r.tag = .capture ∨ sourceClass r.tag = .processor)))) ∨
      (classify (lineAddr r) = .preview w o ∧ o < (s.shot w).previewLength ∧ entry = s.previewEntry w (o / Config.granule) ∧
        (s.shot w).state = .sealed ∧ (s.shot w).dev = .done ∧
        (sourceClass r.tag = .processor ∨ sourceClass r.tag = .display ∨ sourceClass r.tag = .card))) →
    exec .takeRead s = .next
      (match entry with
        | some n => { s with
            link := { s.link with waiting := rest }
            port := { s.port with
              pass := s.port.pass ++ [{
                addr := n * Config.granule + o % Config.granule
                kind := .read {
                  txn := r.txn, data := s.mem.readLine (n * Config.granule + o % Config.granule), respond := true,
                  accepted := none }
                entry := s.port.nextEntry }]
              nextEntry := s.port.nextEntry + 1 } }
        | none => { s with link := { s.link with
            waiting := rest, ready := s.link.ready ++ [{ txn := r.txn, data := List.replicate 64 0, ok := true }] } })

/-- R4, R140 to R142: a served card read is counted and moves PENDING to READING. Without a verify context, at offset 0 while READING,
it starts one when the CRC is present and a context free, and accepts line 0, and otherwise leaves UNVERIFIED. With a context bound
while READING it is accepted when its line is the next expected one. The accepted line's data comes with the read, or is zeros at
once from an empty entry. That the read entry carries the pass is the model's (log 16). -/
def Obligations.CardReadCounted : Prop :=
  ∀ (s : State) (r : Request) (rest : List Request) (w : Fin 64) (o : Nat) (x : Shot),
    TakesRead s r rest → classify (lineAddr r) = .shot w o → sourceClass r.tag = .card → (s.shot w).state = .sealed →
    o < (s.shot w).rawLength →
    x = { s.shot w with
      cardBytes := min ((s.shot w).cardBytes + 64) (2 ^ 32 - 1)
      card := if (s.shot w).card = .pending then .reading else (s.shot w).card } →
    (∀ (n : Nat) (entry : Option (Nat × Nat) → PassEntry), s.rawEntry w (o / Config.granule) = some n →
      (∀ accepted, entry accepted = ({
        addr := n * Config.granule + o % Config.granule
        kind := .read {
          txn := r.txn, data := s.mem.readLine (n * Config.granule + o % Config.granule), respond := true,
          accepted := accepted }
        entry := s.port.nextEntry } : PassEntry)) →
      (verifyOf s w = none →
        ∃ t, exec .takeRead s = .next t ∧ (∀ v, v ≠ w → t.shot v = s.shot v) ∧ t.pool = s.pool ∧ t.maps = s.maps ∧
          (o = 0 → x.card = .reading → (s.shot w).crc.isSome = true → (freeContext s).isSome = true →
            t.shot w = { x with verify := .running } ∧
            verifyOf t w = some { window := w, seq := (s.shot w).seq, pass := s.verify.nextPass, next := 1, crc := crcInit,
                                  accepted := [{ line := 0, data := none }] } ∧
            t.port.pass = s.port.pass ++ [entry (some (s.verify.nextPass, 0))]) ∧
          (o = 0 → x.card = .reading → ((s.shot w).crc = none ∨ freeContext s = none) →
            t.shot w = { x with verify := .unverified } ∧ t.verify = s.verify ∧ t.port.pass = s.port.pass ++ [entry none]) ∧
          (o ≠ 0 ∨ x.card ≠ .reading →
            t.shot w = x ∧ t.verify = s.verify ∧ t.port.pass = s.port.pass ++ [entry none])) ∧
      (∀ c, verifyOf s w = some c → x.card = .reading →
        ∃ t, exec .takeRead s = .next t ∧ (∀ v, v ≠ w → t.shot v = s.shot v) ∧ t.pool = s.pool ∧ t.maps = s.maps ∧
          t.shot w = x ∧
          (c.next = o / 64 →
            verifyOf t w = some { c with
              next := o / 64 + 1, accepted := c.accepted ++ [{ line := o / 64, data := none }] } ∧
            t.port.pass = s.port.pass ++ [entry (some (c.pass, o / 64))]) ∧
          (c.next ≠ o / 64 → t.verify = s.verify ∧ t.port.pass = s.port.pass ++ [entry none]))) ∧
    (s.rawEntry w (o / Config.granule) = none →
      (verifyOf s w = none → o ≠ 0 →
        ∃ t, exec .takeRead s = .next t ∧ (∀ v, v ≠ w → t.shot v = s.shot v) ∧ t.pool = s.pool ∧ t.maps = s.maps ∧
          t.shot w = x ∧ t.verify = s.verify ∧ t.port.pass = s.port.pass ∧
          t.link = { s.link with
            waiting := rest, ready := s.link.ready ++ [{ txn := r.txn, data := List.replicate 64 0, ok := true }] }) ∧
      (∀ c, verifyOf s w = some c → x.card = .reading → c.next = o / 64 → c.accepted = [] →
        (∀ i b, s.verify.contexts.get i = some b → b.pass = c.pass → b = c) → o + 64 ≠ (s.shot w).rawLength →
        ∃ t, exec .takeRead s = .next t ∧ (∀ v, v ≠ w → t.shot v = s.shot v) ∧ t.pool = s.pool ∧ t.maps = s.maps ∧
          t.shot w = x ∧ t.port.pass = s.port.pass ∧
          verifyOf t w = some { c with next := o / 64 + 1, crc := crcBytes c.crc (List.replicate 64 0) } ∧
          t.link = { s.link with
            waiting := rest, ready := s.link.ready ++ [{ txn := r.txn, data := List.replicate 64 0, ok := true }] }))

/-- R4, R5, R157, R158: a served tether read of a SEALED shot, or of its preview while its development is DONE, goes to DRAM or is
answered with zeros, is counted for its part, and makes a QUEUED shot SENDING while fewer than four are. That a read's data stands with
its entry is the model's reading of R55 (log 3). -/
def Obligations.TetherReadCounted : Prop :=
  ∀ (s : State) (r : Request) (rest : List Request) (w : Fin 64) (o : Nat) (entry : Option Nat) (preview : Bool),
    TakesRead s r rest → sourceClass r.tag = .tether → (s.shot w).state = .sealed →
    ((preview = false ∧ classify (lineAddr r) = .shot w o ∧ o < (s.shot w).rawLength ∧
        entry = s.rawEntry w (o / Config.granule)) ∨
      (preview = true ∧ classify (lineAddr r) = .preview w o ∧ (s.shot w).dev = .done ∧ o < (s.shot w).previewLength ∧
        entry = s.previewEntry w (o / Config.granule))) →
    ∃ t, exec .takeRead s = .next t ∧ (∀ v, v ≠ w → t.shot v = s.shot v) ∧ t.pool = s.pool ∧ t.maps = s.maps ∧
      t.tether.queue = s.tether.queue ∧
      t.shot w = { s.shot w with
        tetherRaw := if preview then (s.shot w).tetherRaw else min ((s.shot w).tetherRaw + 64) (2 ^ 32 - 1)
        tetherPreview := if preview then min ((s.shot w).tetherPreview + 64) (2 ^ 32 - 1) else (s.shot w).tetherPreview
        tether := if (s.shot w).tether = .queued ∧ sendingCount s < 4 then .sending else (s.shot w).tether } ∧
      (∀ n, entry = some n → t.link = { s.link with waiting := rest } ∧
        t.port.pass = s.port.pass ++ [{
          addr := n * Config.granule + o % Config.granule
          kind := .read {
            txn := r.txn, data := s.mem.readLine (n * Config.granule + o % Config.granule), respond := true,
            accepted := none }
          entry := s.port.nextEntry }]) ∧
      (entry = none → t.port.pass = s.port.pass ∧ t.link = { s.link with
        waiting := rest, ready := s.link.ready ++ [{ txn := r.txn, data := List.replicate 64 0, ok := true }] })

/-- R57: which queue head the arbiter grants, and the wait counts after a pass-through grant. The model's own readings: a grant
changes no byte of memory (log 3), and a granted read is in flight until its data returns (logs 16 and 17). -/
def Obligations.ArbiterGrantsByRule : Prop :=
  ∀ s : State,
    (∀ x, s.port.writes.head? = some x → 8 ≤ x.wait →
      (∀ y, s.port.reads.head? = some y → 8 ≤ y.wait → x.entry < y.entry) →
      exec .dramGrant s = .next { s with port := { s.port with writes := s.port.writes.tail } }) ∧
    (∀ y, s.port.reads.head? = some y → 8 ≤ y.wait →
      (∀ x, s.port.writes.head? = some x → 8 ≤ x.wait → y.entry ≤ x.entry) →
      exec .dramGrant s = .next (grantRead s)) ∧
    ((∀ x, s.port.writes.head? = some x → x.wait < 8) → (∀ y, s.port.reads.head? = some y → y.wait < 8) →
      (∀ e more, s.port.pass = e :: more → ∃ t, exec .dramGrant s = .next t ∧ t.port.pass = more ∧
        { t with port := s.port } = s ∧
        t.port.writes = s.port.writes.map (fun x => { x with wait := x.wait + 1 }) ∧
        t.port.reads = s.port.reads.map (fun y => { y with wait := y.wait + 1 }) ∧
        t.port.work = s.port.work ∧ t.port.heldReads = s.port.heldReads ∧ t.port.readFlight = s.port.readFlight ∧
        t.port.nextEntry = s.port.nextEntry ∧ (∀ d m, e.kind = .write d m → t.port.passFlight = s.port.passFlight) ∧
        (∀ q, e.kind = .read q → t.port.passFlight = s.port.passFlight ++ [q])) ∧
      (s.port.pass = [] →
        (∀ x, s.port.writes.head? = some x → (∀ y, s.port.reads.head? = some y → x.entry < y.entry) →
          exec .dramGrant s = .next { s with port := { s.port with writes := s.port.writes.tail } }) ∧
        (∀ y, s.port.reads.head? = some y → (∀ x, s.port.writes.head? = some x → y.entry ≤ x.entry) →
          exec .dramGrant s = .next (grantRead s)))) ∧
    (∀ e more, s.port.reads = e :: more → e.purpose ≠ .dropped →
      grantRead s = { s with port := { s.port with reads := more, readFlight := s.port.readFlight ++ [e] } })

/-- R56, R55: a held read is issued, and a held line inserted, when its queue has a place, and enters the memory path then.
Which of the two queues it is, is the command's operand (log 17). -/
def Obligations.HeldRequestEnters : Prop :=
  ∀ s : State,
    (∀ p a more, s.port.heldReads = (p, a) :: more → s.port.reads.length < 16 →
      exec (.ownRequestEnters .internalReads) s = .next { s with port := { s.port with
        heldReads := more
        reads := s.port.reads ++
          [{ purpose := p, addr := a, data := s.mem.readLine a, entry := s.port.nextEntry, wait := 0 }]
        nextEntry := s.port.nextEntry + 1 } }) ∧
    (∀ l, s.port.work = [.line l] → s.port.writes.length < 32 → s.engine.run.rowWaits = false →
      exec (.ownRequestEnters .insertedWrites) s = .next { s with
        mem := s.mem.writeLine (ownLineWrite s l).1 (ownLineWrite s l).2.1 (ownLineWrite s l).2.2
        port := { s.port with
          work := []
          writes := s.port.writes ++ [{
            addr := (ownLineWrite s l).1, data := (ownLineWrite s l).2.1, mask := (ownLineWrite s l).2.2,
            entry := s.port.nextEntry, wait := 0 }]
          nextEntry := s.port.nextEntry + 1 } })

/-- R54, R58, R142, R143, R148: the data of a read returns and its response becomes ready, unless a link reset has silenced it; the
data of a read that a verify pass has accepted is taken in behind that of the lines before it, and the data of the final line ends
the pass MATCH with VERIFIED, or MISMATCH with card status FAILED and VERIFY MISMATCH. The response that became ready first is sent
with its credit. Which read DRAM returns is the command's operand (log 17). -/
def Obligations.ResponsesReturn : Prop :=
  ∀ s : State,
    (∀ k q u, s.port.passFlight[k]? = some q →
      u = { s with
        port := { s.port with passFlight := s.port.passFlight.eraseIdx k }
        link := if q.respond then
            { s.link with ready := s.link.ready ++ [{ txn := q.txn, data := q.data, ok := true }] }
          else s.link } →
      (q.accepted = none → exec (.readDataReturn k) s = .next u) ∧
      (∀ pass l i c, q.accepted = some (pass, l) → s.verify.contexts.get i = some c → c.pass = pass →
        (∀ j d, j ≠ i → s.verify.contexts.get j = some d → d.pass ≠ pass ∧ d.window ≠ c.window) →
        (∀ a more, c.accepted = a :: more → a.line ≠ l → a.data = none →
          ∃ t, exec (.readDataReturn k) s = .next t ∧ { t with verify := s.verify } = u ∧
            t.verify.contexts.get i = some { c with
              accepted := c.accepted.map fun b => if b.line = l then { b with data := some q.data } else b } ∧
            ∀ j, j ≠ i → t.verify.contexts.get j = s.verify.contexts.get j) ∧
        (∀ a more, c.accepted = a :: more → a.line = l → (∀ b ∈ more, b.line ≠ l ∧ b.data = none) →
          (more ≠ [] ∨ c.next * 64 ≠ (s.shot c.window).rawLength →
            ∃ t, exec (.readDataReturn k) s = .next t ∧ { t with verify := s.verify } = u ∧
              t.verify.contexts.get i = some { c with crc := crcBytes c.crc q.data, accepted := more } ∧
              ∀ j, j ≠ i → t.verify.contexts.get j = s.verify.contexts.get j) ∧
          (∀ v o, more = [] → c.next * 64 = (s.shot c.window).rawLength → (s.shot c.window).crc = some (v, o) →
            ∃ t, exec (.readDataReturn k) s = .next t ∧ t.verify.contexts.get i = none ∧
              (∀ j, j ≠ i → t.verify.contexts.get j = s.verify.contexts.get j) ∧
              OnlyReports [.mirror c.window 5, .cursor 3] 1
                ({ u with verify := { u.verify with contexts := t.verify.contexts } }.modShot c.window fun x =>
                  if crcFinish (crcBytes c.crc q.data) = v then { x with verify := .matched }
                  else { x with verify := .mismatch, card := .failed }) t ∧
              (MemoryCanonical s → s.notice.writeIndex < 256 → s.port.work = [] → s.port.writes.length + 3 ≤ 32 →
                unconsumedCount s < 255 → t.notice.number = (s.notice.number + 1) % 65536 ∧
                t.mem.read (slotAddr s s.notice.writeIndex + 2) =
                  if crcFinish (crcBytes c.crc q.data) = v then 0x0E else 0x0F))))) ∧
    (∀ x more, s.link.ready = x :: more →
      exec .readResponseSent s = .next { s with
        link := { s.link with ready := more, credits := s.link.credits + 1, lastSent := some x } })

/-! ### Orders and notices -/

/-- R167, R168: what becomes of a fetched record, of a fetched image and of a code that names no order. An image's lines are read from the
staging area in ascending address order. The phases of an order are the model's own (log 7). -/
def Obligations.OrdersAreDispatched : Prop :=
  ∀ (s : State),
    (∀ e more, s.order.phase = .fetching → returnedReads s .orderRecord = e :: more →
      ((orderKind (decodeOrder e.data).code).bind OrderKind.imageLength = none →
        ∃ t, exec .orderRecordFetched s = .next t ∧ t.order.phase = .dispatched (decodeOrder e.data) [] ∧
          t.order.taken = s.order.taken ∧ t.mem = s.mem ∧ t.shots = s.shots) ∧
      (∀ len, (orderKind (decodeOrder e.data).code).bind OrderKind.imageLength = some len →
        (stagingFits (decodeOrder e.data) len = true → ∃ t, exec .orderRecordFetched s = .next t ∧
          t.order.phase = .imageFetch (decodeOrder e.data) ∧ t.order.taken = s.order.taken ∧ t.mem = s.mem ∧
          t.shots = s.shots ∧
          (t.port.reads.map fun q => (q.purpose, q.addr)) ++ t.port.heldReads =
            (s.port.reads.map fun q => (q.purpose, q.addr)) ++ s.port.heldReads ++
              (List.range (len / 64)).map fun i =>
                (.staging, controlBase s.caSel + 0x10000 + (decodeOrder e.data).staging + 64 * i)) ∧
        (stagingFits (decodeOrder e.data) len = false → exec .orderRecordFetched s =
          .next (finishOrder (takeReturned s .orderRecord) (decodeOrder e.data) .badParam)))) ∧
    (∀ o, s.order.phase = .imageFetch o → readsWaiting s .staging = false →
      ∃ t, exec .stagingImageFetched s = .next t ∧
        t.order.phase = .dispatched o ((returnedReads s .staging).flatMap fun e => e.data) ∧
        t.mem = s.mem ∧ t.shots = s.shots) ∧
    (∀ o img, s.order.phase = .dispatched o img → orderKind o.code = none →
      exec .unknownOrder s = .next (finishOrder s o .unknown))

/-- R169: with places for its writes, an order whose status is decided has its status byte written into its record, the taken
index raised, and its notice handed over when it asked for one; then the next pending order is taken. -/
def Obligations.OrderCompletes : Prop :=
  ∀ (s : State) (o : OrderRecord) (st : OrderStatus),
    MemoryCanonical s → IndicesInRange s → s.port.work = [] → s.port.writes.length + 4 ≤ 32 →
    ∃ t, finishOrder s o st = t ∧ OnlyOwnWork s t ∧ t.order.taken = (s.order.taken + 1) % 64 ∧
      t.mem.read (orderAddr s s.order.taken + 4) = BitVec.ofNat 8 st.code ∧
      t.order.phase = (if 0 < (s.order.post + 64 - (s.order.taken + 1) % 64) % 64 then .fetching else .idle) ∧
      (o.notify = true → unconsumedCount s < 255 → t.notice.number = (s.notice.number + 1) % 65536) ∧
      (o.notify = false → t.notice = s.notice) ∧
      ∀ a, a ≠ orderAddr s s.order.taken + 4 → Outside (controlBase s.caSel + Config.cursorPage + 64 * 3) 64 a →
        (o.notify = true → Outside (slotAddr s s.notice.writeIndex) 32 a) → t.mem.read a = s.mem.read a

/-- R45, R164: a line that is written back with a place free carries the values of the moment, byte by byte. -/
def Obligations.LineWrittenBack : Prop :=
  ∀ (s : State) (l : OwnLine),
    MemoryCanonical s → s.port.work = [] → s.port.writes.length < 32 →
    ∃ t, emitLine s l = t ∧ OnlyReports [l] 0 s t ∧
      (∀ i, i < 64 → (ownLineWrite s l).2.2.getLsbD i = true →
        t.mem.read ((ownLineWrite s l).1 + i) = (ownLineWrite s l).2.1.getD i 0) ∧
      t.port.writes = s.port.writes ++ [{
        addr := (ownLineWrite s l).1, data := (ownLineWrite s l).2.1, mask := (ownLineWrite s l).2.2,
        entry := s.port.nextEntry, wait := 0 }]

/-- R11, R171, R174: a notice handed over with fewer than 255 unconsumed and places free is written at the write index with its
number, a PLAIN FAULT's slot is marked against its class, and the attention condition is evaluated, which moves the line as the mode
says (R175); with 255 unconsumed it is dropped
and counted, and a PLAIN FAULT's class is cleared. -/
def Obligations.NoticeWrittenOrDropped : Prop :=
  ∀ (s : State) (n : Notice),
    MemoryCanonical s → IndicesInRange s → s.port.work = [] → s.port.writes.length + 2 ≤ 32 →
    ∃ t, hand s n = t ∧ OnlyReports [.cursor 3] 1 (s.withMarks t.notice.outstanding) t ∧
      (n.fault = none → t.notice.outstanding = s.notice.outstanding) ∧
      (unconsumedCount s < 255 →
        (∀ i, i < 32 → t.mem.read (slotAddr s s.notice.writeIndex + i) = (noticeBytes n s.notice.number).getD i 0) ∧
        t.notice.writeIndex = (s.notice.writeIndex + 1) % 256 ∧ t.notice.number = (s.notice.number + 1) % 65536 ∧
        t.notice.overflow = s.notice.overflow ∧
        t.notice.unconsumed = s.notice.unconsumed ++ [{ time := s.now, urgent := n.kind.urgent }] ∧
        (∀ c, n.fault = some c → t.notice.outstanding = s.notice.outstanding.set c (.slot s.notice.writeIndex)) ∧
        AttentionEvaluated s.notice (attentionCondition t) s.now t.notice) ∧
      (unconsumedCount s = 255 →
        t.notice.writeIndex = s.notice.writeIndex ∧ t.notice.number = s.notice.number ∧
        t.notice.overflow = min (s.notice.overflow + 1) (2 ^ 32 - 1) ∧ t.notice.unconsumed = s.notice.unconsumed ∧
        (∀ c, n.fault = some c → t.notice.outstanding = s.notice.outstanding.set c .clear) ∧
        t.notice.standing = s.notice.standing ∧ t.notice.line = s.notice.line)

/-- R38: an order that names a shot is refused BAD-PARAM for a window number above 63, and STATE for a FREE window or another
sequence number, and then changes nothing. -/
def Obligations.OrderNamingNoShotRefused : Prop :=
  ∀ p ∈ [(Instr.sealOrder, OrderKind.seal), (.discard, .discard), (.protect, .protect), (.unprotect, .unprotect),
      (.rate, .rate), (.redevelop, .redevelop), (.cardDone, .cardDone), (.cardRetry, .cardRetry),
      (.tetherDone, .tetherDone), (.sendNow, .sendNow)],
    ∀ (s : State) (o : OrderRecord) (img : List Byte), dispatchedOrder s p.2 = some (o, img) →
      (64 ≤ o.window → exec p.1 s = .next (finishOrder s o .badParam)) ∧
      (∀ w : Fin 64, o.window = w.val → ((s.shot w).state = .free ∨ (s.shot w).seq ≠ o.seq) →
        exec p.1 s = .next (finishOrder s o .state))

/-! ### The pool -/

/-- R20, R21, R33: SET POOL with the marks-only flag clear. -/
def Obligations.SetPoolReplacesPool : Prop :=
  ∀ (s : State) (o : OrderRecord) (img : List Byte) (first count low high : Nat),
    dispatchedOrder s .setPool = some (o, img) → marksOnly o = false → first = field o.params 0 2 →
    count = field o.params 2 2 → low = field o.params 4 2 → high = field o.params 6 2 →
    (poolParamsValid s first count low high = false → exec .setPool s = .next (finishOrder s o .badParam)) ∧
    (poolParamsValid s first count low high = true → (∃ w, (s.shot w).state ≠ .free) →
      exec .setPool s = .next (finishOrder s o .state)) ∧
    (poolParamsValid s first count low high = true → (∀ w, s.shot w = freeShot) →
      ∃ u, exec .setPool s = .next (finishOrder u o .done) ∧ u.pool.first = first ∧ u.pool.size = count ∧
        u.pool.free = (List.range count).map (fun i => first + i) ∧ u.pool.low = low ∧ u.pool.high = high ∧
        u.pool.armed = (if s.pool.armed then decide (low ≤ count) else decide (high ≤ count)) ∧
        u.table.admissible = admissibleOf u (captureCursorOf u) ∧ u.table.cursor = captureCursorOf u ∧
        OnlyReports [.cursor 2, .cursor 3, .cursor 1] 1
          { s with
            pool := u.pool
            table := { s.table with cursor := u.table.cursor, admissible := u.table.admissible } } u)

/-- R22: SET POOL with the marks-only flag set ignores its range, refuses marks out of order or above the pool size, and otherwise
replaces both marks and evaluates the armed flag, with its POOL LOW notice, and changes nothing else. -/
def Obligations.SetPoolMarksOnlyRule : Prop :=
  ∀ (s : State) (o : OrderRecord) (img : List Byte) (low high : Nat),
    dispatchedOrder s .setPool = some (o, img) → marksOnly o = true → low = field o.params 4 2 →
    high = field o.params 6 2 →
    ((high < low ∨ s.pool.size < high) → exec .setPoolMarksOnly s = .next (finishOrder s o .badParam)) ∧
    (low ≤ high → high ≤ s.pool.size →
      ∃ u, exec .setPoolMarksOnly s = .next (finishOrder u o .done) ∧
        OnlyReports [.cursor 3] 1
          { s with pool := { s.pool with
            low := low
            high := high
            armed := if s.pool.armed then decide (low ≤ available s) else decide (high ≤ available s) } } u ∧
        (s.pool.armed = true → available s < low →
          u = (hand { s with pool := { s.pool with low := low, high := high, armed := false } } (poolLowNotice s)).owingSince s) ∧
        (¬(s.pool.armed = true ∧ available s < low) → u = { s with pool := u.pool }))

/-! ### The Shot Table -/

/-- R27, R33: SET PROFILE replaces a slot by a valid image, and refuses any other. -/
def Obligations.SetProfileReplacesSlot : Prop :=
  ∀ (s : State) (o : OrderRecord) (img : List Byte), dispatchedOrder s .setProfile = some (o, img) →
    (4 ≤ field o.params 0 1 ∨ decodeProfile img = none → exec .setProfile s = .next (finishOrder s o .badParam)) ∧
    (∀ (n : Fin 4) (p : Profile), field o.params 0 1 = n.val → decodeProfile img = some p →
      ∃ u, exec .setProfile s = .next (finishOrder u o .done) ∧ u.table.profiles.get n = some p ∧
        (∀ m, m ≠ n → u.table.profiles.get m = s.table.profiles.get m) ∧
        (s.table.active = n → u.table.cursor = captureCursorOf u ∧
          u.table.admissible = admissibleOf u (captureCursorOf u)) ∧
        (s.table.active ≠ n → u.table.cursor = s.table.cursor ∧ u.table.admissible = s.table.admissible) ∧
        OnlyReports [.cursor 1] 0
          { s with table := { s.table with
            profiles := u.table.profiles, cursor := u.table.cursor, admissible := u.table.admissible } } u)

/-- R28: SELECT PROFILE. -/
def Obligations.SelectProfileMakesActive : Prop :=
  ∀ (s : State) (o : OrderRecord) (img : List Byte), dispatchedOrder s .selectProfile = some (o, img) →
    (4 ≤ field o.params 0 1 → exec .selectProfile s = .next (finishOrder s o .badParam)) ∧
    (∀ n : Fin 4, field o.params 0 1 = n.val → s.table.profiles.get n = none →
      exec .selectProfile s = .next (finishOrder s o .badParam)) ∧
    (∀ (n : Fin 4) (p : Profile), field o.params 0 1 = n.val → s.table.profiles.get n = some p →
      ∃ u, exec .selectProfile s = .next (finishOrder u o .done) ∧ activeProfile u = some p ∧
        u.table.cursor = captureCursorOf u ∧ u.table.admissible = admissibleOf u (captureCursorOf u) ∧
        OnlyReports [.cursor 1] 0
          { s with table := { s.table with
            active := n, cursor := u.table.cursor, admissible := u.table.admissible } } u)

/-- R14, R16, R34 to R37: SEAL, the capture timer and the write of the final line each seal a CAPTURING shot, with tap status, CRC,
development status and reservation as the rules settle them, and with the selection table applied where the shot's inputs are present
(R152, R153). The final line is first received by the shot tap: in order, as the end of the still-check range, or with the readout
DISORDERED by it. A shot that nothing else keeps is released by the seal's own release
check (R43, R44). That the clock then stands at the end of the timer or later is the model's choice (log 5). -/
def Obligations.SealLeavesShotSealed : Prop :=
  ∀ (s : State) (w : Fin 64) (p : Profile) (complete : Bool) (value : BitVec 32),
    (s.shot w).state = .capturing → (s.shot w).profile = some p →
    (p.cardRequired = true ∨ (s.shot w).protect = true →
      (complete = ((contextOf s w).map fun c => c.following && decide (c.next = p.lines)).getD false →
        value = ((contextOf s w).map fun c => crcFinish c.crc).getD 0 →
        (∀ o img, dispatchedOrder s .seal = some (o, img) → Names s o w →
          ∃ u, exec .sealOrder s = .next (finishOrder u o .done) ∧ SealedFrom s u w p complete value) ∧
        (∀ d, (s.shot w).timer = .running d →
          ∃ u, exec (.captureTimeout w) s = .next u ∧ d ≤ u.now ∧ SealedFrom s u w p complete value)) ∧
      (∀ r rest data mask o n c, TakesWrite s r rest data mask → classify (lineAddr r) = .shot w o →
        sourceClass r.tag = .capture → o + 64 = (s.shot w).rawLength → s.rawEntry w (o / Config.granule) = some n →
        contextOf s w = some c →
        (mask = fullMask → c.following = true → c.next = o / 64 →
          (¬endsStillRange p c (o / 64) → (c.inlineFeed = true → s.taps.fifo.length < 128) →
            ∃ u, exec .takeWrite s = .next u ∧
              SealedFrom s u w p (decide (c.next + 1 = p.lines)) (crcFinish (crcBytes c.crc data)) ∧
              (c.next + 1 = p.lines → s.engine.activity ≠ .idle → u.taps.fifo =
                if c.inlineFeed then s.taps.fifo ++ [{ window := w, line := o / 64, data := data }] else s.taps.fifo)) ∧
          (∀ z acc f m, c.range = some z → c.still = some acc → stillLine p z.val (o / 64) = true →
            lastStillLine p z.val = some (o / 64) → c.inlineFeed = false → s.focus.setup = some f →
            m = measure (addStillLine p (o / 64) data acc).sums f.search f.cmin p.kz →
            ∃ t u, exec .takeWrite s = .next u ∧
              OnlyReports [.mirror w 2, .cursor 3] 1
                ({ lineStored s rest w p (n * Config.granule + o % Config.granule) data mask with
                    taps := t.taps }.modShot w fun x =>
                  { x with focusCheck := some { state := checkStateOf f m, q := m.q, conf := m.conf } }) t ∧
              SealedFrom t u w p (decide (c.next + 1 = p.lines)) (crcFinish (crcBytes c.crc data)))) ∧
        (c.following = true → ¬(mask = fullMask ∧ c.next = o / 64) → s.engine.activity = .replay →
          ∃ t u, exec .takeWrite s = .next u ∧
            Disordered s t w { s.shot w with timer := captureTimer s.now p } ∧ SealedFrom t u w p false 0) ∧
        (c.following = false → ∃ u, exec .takeWrite s = .next u ∧ SealedFrom s u w p false 0))) ∧
    (p.cardRequired = false → p.tetherEvaluated = false → (s.shot w).protect = false → (s.shot w).dev = .none →
      (s.shot w).tapStatus = .disordered → s.engine.activity ≠ .idle →
      ∀ o img, dispatchedOrder s .seal = some (o, img) → Names s o w →
        ∃ u, exec .sealOrder s = .next (finishOrder u o .done) ∧ Freed s u w)

/-- R18, R39, R40, R44, R130, R135: DISCARD releases a shot that the Development Engine does not work on, CAPTURING or SEALED, its
granules going to the tail of the free queue in map order, with its tether entry, verify context, replay job and tap context gone; an
INLINE shot that the engine has not begun is released at once; one that it works on becomes DISCARDING and is released when the
engine stops at its next line; and a DISCARDING one stays as it is. Where the engine stops is the model's choice (log 10): with the stop
asked for it uses the FIFO's head entry, or the replayed line it waits for, and stops then, and with an empty FIFO INLINE_LINE_CONSUMED
itself stops and releases. Not stated here: QUEUED with an idle engine, which then chooses new work, and the stop of a DEVELOP replay or
at a line that completes an output row. -/
def Obligations.DiscardReleasesShot : Prop :=
  ∀ (s : State) (w : Fin 64),
    (∀ (o : OrderRecord) (img : List Byte), dispatchedOrder s .discard = some (o, img) → Names s o w →
      ((s.shot w).state = .sealed → ((s.shot w).dev = .none ∨ (s.shot w).dev = .done ∨ (s.shot w).dev = .failed) →
        ∃ u, exec .discard s = .next (finishOrder u o .done) ∧ u.shot w = freeShot ∧ u.mapsOf w = emptyMaps ∧
          u.pool.free = s.pool.free ++ mappedGranules (s.mapsOf w) ∧ verifyOf u w = none ∧
          tetherEntry u w = none ∧ ∀ v, v ≠ w → (u.shot v).state = (s.shot v).state ∧ u.mapsOf v = s.mapsOf v) ∧
      (((s.shot w).state = .sealed ∨ (s.shot w).state = .capturing) → s.engine.activity ≠ .idle →
        ((s.shot w).dev = .none ∨ (s.shot w).dev = .done ∨ (s.shot w).dev = .failed ∨ (s.shot w).dev = .queued) →
        ∃ u, exec .discard s = .next (finishOrder u o .done) ∧ Freed s u w ∧ verifyOf u w = none ∧
          tetherEntry u w = none ∧ ((s.shot w).dev = .queued → hasJob u w = false) ∧
          ((s.shot w).state = .capturing → contextOf u w = none)) ∧
      (((s.shot w).state = .sealed ∨ (s.shot w).state = .capturing) → (s.shot w).dev = .inline →
        (s.engine.activity = .replay →
          ∃ u, exec .discard s = .next (finishOrder u o .done) ∧ Freed s u w ∧ verifyOf u w = none ∧
            tetherEntry u w = none ∧ u.engine.suspend = false ∧ u.engine.queue = s.engine.queue ∧
            u.taps.fifo = s.taps.fifo.filter (fun e => e.window ≠ w) ∧
            ((s.shot w).state = .capturing → contextOf u w = none)) ∧
        (s.engine.activity = .inline w →
          ∃ u, exec .discard s = .next (finishOrder u o .done) ∧ (u.shot w).state = .discarding ∧
            u.engine.stop = some w ∧ u.maps = s.maps ∧ u.pool = s.pool ∧ u.taps.fifo = s.taps.fifo ∧
            (∀ v, v ≠ w → u.shot v = s.shot v) ∧
            ((s.shot w).state = .capturing → contextOf u w = none ∧ (u.shot w).timer = .stopped))) ∧
      ((s.shot w).state = .sealed → (s.shot w).dev = .replaying → s.engine.activity = .replay →
        ∃ u, exec .discard s = .next (finishOrder u o .done) ∧ (u.shot w).state = .discarding ∧
          u.engine.stop = some w ∧ u.maps = s.maps ∧ u.pool = s.pool ∧
          ∀ v, v ≠ w → u.shot v = s.shot v) ∧
      ((s.shot w).state = .discarding → exec .discard s = .next (finishOrder s o .done))) ∧
    (s.engine.stop = some w → s.engine.run.rowWaits = false → previewWaits s = false →
      (∀ v, v ≠ w → (s.shot v).dev ≠ .inline) →
      (s.engine.activity = .inline w → s.engine.queue = [] →
        (s.taps.fifo = [] →
          ∃ u, exec .inlineLineConsumed s = .next u ∧ Freed s u w ∧ u.engine.stop = none ∧ u.engine.activity = .idle) ∧
        (∀ e rest p d, s.taps.fifo = e :: rest → (s.shot w).profile = some p → (s.shot w).devSet = some d →
          (e.line + 1) % (2 * d.scale * linesPerRow p.width) ≠ 0 →
          ∃ u, exec .inlineLineConsumed s = .next u ∧ Freed s u w ∧ u.engine.stop = none ∧ u.engine.activity = .idle ∧
            u.taps.fifo = rest.filter (fun e => e.window ≠ w))) ∧
      (∀ j p data t, s.engine.activity = .replay → s.engine.queue = [j] → j.window = w → j.kind = .check →
        (s.shot w).profile = some p → s.engine.run.still = none → returnedLine s = some (data, t) →
        ∃ u, exec .replayLineReturned s = .next u ∧ Freed s u w ∧ u.engine.stop = none ∧ u.engine.activity = .idle ∧
          u.engine.queue = []))

/-- R41, R43: PROTECT sets and UNPROTECT clears the protect flag of a CAPTURING shot, and of a SEALED one that another condition
keeps; UNPROTECT releases a SEALED shot that nothing else keeps; on a DISCARDING shot either is refused STATE. -/
def Obligations.ProtectFlagFollowsOrders : Prop :=
  ∀ (s : State) (o : OrderRecord) (img : List Byte) (w : Fin 64), Names s o w →
    (dispatchedOrder s .protect = some (o, img) → (s.shot w).state ≠ .discarding →
      ∃ u, exec .protect s = .next (finishOrder u o .done) ∧
        OnlyReports [.mirror w 1] 0 (s.modShot w fun x => { x with protect := true }) u) ∧
    (dispatchedOrder s .unprotect = some (o, img) → (s.shot w).state ≠ .discarding →
      ((s.shot w).state = .sealed → ({ s.shot w with protect := false } : Shot).releasable = false) →
      ∃ u, exec .unprotect s = .next (finishOrder u o .done) ∧
        OnlyReports [.mirror w 1] 0 (s.modShot w fun x => { x with protect := false }) u) ∧
    (dispatchedOrder s .unprotect = some (o, img) → (s.shot w).state = .sealed →
      ({ s.shot w with protect := false } : Shot).releasable = true →
      ∃ u, exec .unprotect s = .next (finishOrder u o .done) ∧ Freed s u w) ∧
    (dispatchedOrder s .protect = some (o, img) → (s.shot w).state = .discarding →
      exec .protect s = .next (finishOrder s o .state)) ∧
    (dispatchedOrder s .unprotect = some (o, img) → (s.shot w).state = .discarding →
      exec .unprotect s = .next (finishOrder s o .state))

/-- R42, R153, R154, R161: RATE sets rating (5 at most), story key and urgent flag. On a CAPTURING shot, or on a SEALED one that is
not evaluated for the tether while the published head is current, it does nothing else. A SEALED shot that is UNDECIDED with its
inputs present, NOT-SELECTED, or QUEUED without the forced mark is put under the selection table with its new values, and is released
when it ends NOT-SELECTED and nothing else keeps it (R43). On a DISCARDING shot RATE is refused STATE. -/
def Obligations.RateSetsRating : Prop :=
  ∀ (s : State) (o : OrderRecord) (img : List Byte) (w : Fin 64) (x : Shot),
    dispatchedOrder s .rate = some (o, img) → Names s o w →
    x = { s.shot w with
      rating := min (field o.params 0 1) 5, storyKey := field o.params 1 2, urgent := flagAt o.params 3 } →
    ((s.shot w).state = .capturing ∨
      ((s.shot w).state = .sealed ∧ (s.shot w).tether = .notRequired ∧ s.tether.head = tetherHeadOf s) →
      ∃ u, exec .rate s = .next (finishOrder u o .done) ∧ OnlyReports [.mirror w 1] 0 (s.setShot w x) u) ∧
    ((s.shot w).state = .sealed →
      (∀ send, selected s x = some send →
        ((s.shot w).tether = .undecided ∧ x.inputsPresent = true) ∨ (s.shot w).tether = .notSelected →
        ∃ u, exec .rate s = .next (finishOrder u o .done) ∧ OthersKept s u w ∧ u.tether.head = tetherHeadOf u ∧
          u.shot w = { x with
            tether := .queued, sendWhat := some (degrade x send), tetherRaw := 0, tetherPreview := 0 } ∧
          u.tether.queue = insertEntry s.tether.queue
            { window := w, seq := x.seq, send := degrade x send, urgent := x.urgent,
              ready := readyFlag x (degrade x send), forced := false }) ∧
      (selected s x = none →
        ((s.shot w).tether = .undecided ∧ x.inputsPresent = true) ∨
          ((s.shot w).tether = .queued ∧ ∃ e, tetherEntry s w = some e ∧ e.forced = false) →
        (({ x with tether := .notSelected } : Shot).releasable = false →
          ∃ u, exec .rate s = .next (finishOrder u o .done) ∧ OthersKept s u w ∧ u.tether.head = tetherHeadOf u ∧
            u.shot w = { x with tether := .notSelected, sendWhat := none } ∧
            u.tether.queue =
              if (s.shot w).tether = .queued then s.tether.queue.filter (fun e => e.window ≠ w) else s.tether.queue) ∧
        (({ x with tether := .notSelected } : Shot).releasable = true →
          ∃ u, exec .rate s = .next (finishOrder u o .done) ∧ Freed s u w)) ∧
      (∀ send e, selected s x = some send → (s.shot w).tether = .queued → tetherEntry s w = some e → e.forced = false →
        ∃ u, exec .rate s = .next (finishOrder u o .done) ∧ OthersKept s u w ∧ u.tether.head = tetherHeadOf u ∧
          u.shot w = { x with sendWhat := some (degrade x send) } ∧
          (e.urgent = x.urgent → u.tether.queue = s.tether.queue.map fun q => if q.window = w then
            { e with send := degrade x send, ready := readyFlag x (degrade x send) } else q) ∧
          (e.urgent ≠ x.urgent → u.tether.queue = insertEntry (s.tether.queue.filter fun q => q.window ≠ w)
            { e with send := degrade x send, urgent := x.urgent, ready := readyFlag x (degrade x send) })) ∧
      (((s.shot w).tether = .undecided ∧ x.inputsPresent = false) ∨
          ((s.shot w).tether = .notSelected ∧ selected s x = none) ∨
          ((s.shot w).tether = .queued ∧ ∃ e, tetherEntry s w = some e ∧ e.forced = true) ∨
          (s.shot w).tether = .sending ∨ (s.shot w).tether = .sent ∨ (s.shot w).tether = .abandoned →
        ∃ u, exec .rate s = .next (finishOrder u o .done) ∧ OthersKept s u w ∧ u.shot w = x ∧
          u.tether.queue = s.tether.queue)) ∧
    ((s.shot w).state = .discarding → exec .rate s = .next (finishOrder s o .state))

/-! ### Focus -/

/-- R75, R79, R80: SET FOCUS replaces the setup by a fitting one, and resets the zones at a grid change alone; any other image is
refused. -/
def Obligations.SetFocusReplacesSetup : Prop :=
  ∀ (s : State) (o : OrderRecord) (img : List Byte), dispatchedOrder s .setFocus = some (o, img) →
    (decodeFocus img = none → exec .setFocus s = .next (finishOrder s o .badParam)) ∧
    (∀ f, decodeFocus img = some f →
      (buffersFit s f = false → exec .setFocus s = .next (finishOrder s o .badParam)) ∧
      (buffersFit s f = true →
        ∃ u, exec .setFocus s = .next (finishOrder u o .done) ∧ u.focus.setup = some f ∧ u.view.followed = none ∧
          u.view.lastGridLine = lastGridLineOf f ∧ u.view.sequence = s.view.sequence ∧
          u.focus.mode = s.focus.mode ∧ u.focus.follow = s.focus.follow ∧ u.focus.candidates = s.focus.candidates ∧
          u.shots = s.shots ∧ u.taps = s.taps ∧ u.pool = s.pool ∧ u.lens = s.lens ∧
          (gridChange s.focus.setup f = true → u.focus.primary = none ∧ ∀ z, u.focus.zones.get z = noDataZone) ∧
          (gridChange s.focus.setup f = false → u.focus.primary = s.focus.primary ∧ u.focus.zones = s.focus.zones)))

/-- R94: FOCUS START. -/
def Obligations.FocusStartSetsFollowing : Prop :=
  ∀ (s : State) (o : OrderRecord) (img : List Byte), dispatchedOrder s .focusStart = some (o, img) →
    (2 < field o.params 0 1 ∨ (BitVec.ofNat 64 (field o.params 2 8)).getLsbD 63 = true →
      exec .focusStart s = .next (finishOrder s o .badParam)) ∧
    (∀ m, followModeOf (field o.params 0 1) = some m → (BitVec.ofNat 64 (field o.params 2 8)).getLsbD 63 = false →
      ∃ u, exec .focusStart s = .next (finishOrder u o .done) ∧ u.focus.mode = m ∧
        u.focus.candidates = BitVec.ofNat 64 (field o.params 2 8) ∧
        u.focus.follow = (if m = .off then .idle else .following) ∧ u.focus.setup = s.focus.setup ∧
        u.focus.bankA = s.focus.bankA ∧ u.focus.bankB = s.focus.bankB ∧ { u with focus := s.focus } = s ∧
        (flagAt o.params 1 = true → u.focus.primary = none ∧
          u.focus.zones = s.focus.zones.map fun z => { z with primary := false }) ∧
        (flagAt o.params 1 = false → u.focus.primary = s.focus.primary ∧ u.focus.zones = s.focus.zones))

/-- R73, R88 to R93, R95: a completed measurement under a setup that no grid change has overtaken gives the zone records and the
primary zone, reports the changes of state that each zone's mode asks for, and forms a lens target or locks SINGLE mode when it may;
one that a grid change has overtaken is discarded and counted. The bank becomes IDLE, and a FULL other bank MEASURING. -/
def Obligations.MeasurementSettlesZones : Prop :=
  ∀ (s : State) (k : BankId) (f : FocusSetup) (other : Bank), measuringBank s = some k → (s.bank k).setup = some f →
    other = (if (s.bank k.other).state = .full then
      { s.bank k.other with state := .measuring, setup := s.focus.setup, gridChanged := false } else s.bank k.other) →
    ((s.bank k).gridChanged = false → ∀ measured new primary zs,
      measured = measuredZones f (s.bank k) s.focus.zones →
      primary = choosePrimary f s.focus.candidates measured s.focus.primary → new = markPrimary primary measured →
      zs = (List.finRange 63).filter (fun z => decide (z.val < f.grid.zones) &&
        (f.modes.get z).reports (s.focus.zones.get z).state (new.get z).state) →
      ∃ t, exec .measurementComplete s = .next t ∧ t.focus.zones = new ∧ t.focus.primary = primary ∧
        t.bank k = idleBank ∧ t.bank k.other = other ∧
        OnlyReports ((List.finRange 63).map .zone ++ [.cursor 3]) zs.length { s with focus := t.focus, lens := t.lens } t ∧
        (MemoryCanonical s → IndicesInRange s → s.port.work = [] →
          s.port.writes.length + (zonesWritten f s.focus.zones new).length + 2 * zs.length ≤ 32 →
          unconsumedCount s + zs.length ≤ 255 →
          t.notice.number = numberAfter s.notice.number zs.length ∧
          ∀ (i : Nat) (z : Fin 63) (j : Nat), zs[i]? = some z → j < 32 →
            t.mem.read (slotAddr s (slotAfter s.notice.writeIndex i) + j) =
              (noticeBytes (focusChangeNotice z (s.focus.zones.get z).state (new.get z))
                (numberAfter s.notice.number i)).getD j 0) ∧
        (candidateZones f s.focus.candidates measured = [] ∨ exposurePosition (s.bank k) = none ∨
            s.focus.follow ≠ .following → t.focus.follow = s.focus.follow ∧ t.lens = s.lens) ∧
        (∀ z e, candidateZones f s.focus.candidates measured ≠ [] → primary = some z →
          exposurePosition (s.bank k) = some e → s.focus.follow = .following →
          (s.focus.mode = .single → (new.get z).state = .inFocus → t.focus.follow = .locked ∧ t.lens = s.lens) ∧
          (s.focus.mode ≠ .single ∨ (new.get z).state ≠ .inFocus → t.focus.follow = .following ∧
            (s.lens.state ≠ .ready → t.lens = s.lens) ∧
            (∀ (info : LensInfo) (r : PositionReport) (target : Nat), s.lens.state = .ready → s.lens.info = some info →
              s.lens.report = some r →
              (target : Int) = min (max ((e : Int) + (new.get z).steps) info.minimum) info.maximum →
              (info.minimum ≤ info.maximum → info.minimum ≤ target ∧ target ≤ info.maximum) ∧
              (absDiff target r.position < f.deadband → t.lens = s.lens) ∧
              (f.deadband ≤ absDiff target r.position →
                (s.lens.exchange.isSome = true → t.lens = { s.lens with drive := some target }) ∧
                (s.lens.exchange = none → s.lens.stopPending = false → s.lens.messages = [] → capturingCount s = 0 →
                  t.lens.drive = none ∧ ∃ x, t.lens.exchange = some x ∧
                    x.request = .drive target (speedClass (absDiff target r.position)) ∧ x.since = s.now)))))) ∧
    ((s.bank k).gridChanged = true →
      ∃ t, exec .measurementComplete s = .next t ∧ t.focus.zones = s.focus.zones ∧ t.focus.primary = s.focus.primary ∧
        t.focus.follow = s.focus.follow ∧ t.lens = s.lens ∧ t.view.skipped = (s.view.skipped + 1) % 2 ^ 32 ∧
        t.bank k = idleBank ∧ t.bank k.other = other ∧ t.shots = s.shots ∧ t.pool = s.pool ∧ t.maps = s.maps)

/-- R86: with a search range of 1..12, a measurement's q lies within −256D..256D and its confidence within 0..255, and the
confidence is 0 beyond range and at low contrast. -/
def Obligations.MeasurementWithinBounds : Prop :=
  ∀ (p : Profiles) (d cmin kz : Nat), 1 ≤ d → d ≤ 12 →
    (measure p d cmin kz).q.natAbs ≤ 256 * d ∧ (measure p d cmin kz).conf ≤ 255 ∧
    ((measure p d cmin kz).beyond = true ∨ (measure p d cmin kz).lowContrast = true →
      (measure p d cmin kz).conf = 0)

/-! ### The lens line -/

/-- R112: LENS MESSAGE is refused BAD-PARAM, NO-LENS or FULL in that order, and otherwise joins the tail of the queue and
completes ACCEPTED; the arbiter then makes its choice. -/
def Obligations.LensMessageQueued : Prop :=
  ∀ (s : State) (o : OrderRecord) (img : List Byte), dispatchedOrder s .lensMessage = some (o, img) →
    (field o.params 0 1 < 0x40 ∨ 0x7F < field o.params 0 1 ∨ 8 < field o.params 1 1 →
      exec .lensMessage s = .next (finishOrder s o .badParam)) ∧
    (0x40 ≤ field o.params 0 1 → field o.params 0 1 ≤ 0x7F → field o.params 1 1 ≤ 8 →
      (s.lens.state ≠ .ready → exec .lensMessage s = .next (finishOrder s o .noLens)) ∧
      (s.lens.state = .ready → 8 ≤ s.lens.messages.length →
        exec .lensMessage s = .next (finishOrder s o .full)) ∧
      (s.lens.state = .ready → s.lens.messages.length < 8 →
        exec .lensMessage s = .next (finishOrder
          (arbitrate { s with lens := { s.lens with messages := s.lens.messages ++
            [{ tag := o.tag, kind := BitVec.ofNat 8 (field o.params 0 1),
               data := padTo (field o.params 1 1) ((o.params.drop 2).take (field o.params 1 1)) }] } })
          o .accepted)))

/-- R102, R103: lens-present becoming active starts identification, and becoming inactive makes the lens ABSENT with nothing
pending, held or reported. -/
def Obligations.LensPresentDecidesAttachment : Prop :=
  ∀ s : State,
    (s.phase = .started → s.lens.state = .absent → s.lens.exchange = none →
      ∃ t, exec .lensPresentActive s = .next t ∧ t.lensPin = true ∧ t.lens.state = .identifying ∧
        t.lens.timeouts = 0 ∧ t.lens.info = none ∧ t.lens.messages = s.lens.messages ∧
        t.lens.exchange = some { request := .ident, frame := [1, 1], since := s.now, judgeStop := false } ∧
        t.shots = s.shots ∧ t.focus = s.focus) ∧
    (s.lens.state ≠ .absent →
      ∃ t, exec .lensPresentInactive s = .next t ∧ t.lensPin = false ∧
        t.lens = { state := .absent, info := none, report := none, timeouts := 0, exchange := none,
                   previous := s.lens.previous, drive := none, messages := [], statusPending := false,
                   stopPending := false, identPending := false, pollPending := false, identRetry := .stopped,
                   poll := .stopped } ∧
        t.shots = s.shots ∧ t.focus = s.focus)

/-- R102, R104 to R107, R110, R111, R113, R114: the end of an exchange, and the arbiter's choice of the next. A good reply is the last
position report and clears the count; an IDENT reply gives the lens information and READY, or starts the retry timer; a poll's STATUS
reply makes the lens READY; a BUSY target returns to an empty slot; a moving lens after an open asks for STOP; a message's reply is
handed on. A first or second timeout is counted and told to the owner, and the third makes the lens UNRESPONSIVE. The times of the
clock are the model's choice (log 5), and so is that what is pending is cleared as its exchange begins (log 15). -/
def Obligations.LensExchangeEndJudged : Prop :=
  (∀ s : State, ArbiterChose s (arbitrate s)) ∧
  ∀ (s b : State) (x : Exchange) (bytes : List Byte), s.lens.exchange = some x → b = exchangeOver s x →
    (∀ r v, judgeReply x.request bytes = some r →
      v = { b with lens := { b.lens with report := some r.report, timeouts := 0 } } →
      (x.request = .ident → ∃ u, exec (.lensExchangeEnd bytes) s = .next (arbitrate u) ∧
        (r.status = .ok → OnlyReports [.cursor 6] 0 { v with lens := { v.lens with
          state := .ready, info := some r.info, poll := .stopped, pollPending := false } } u) ∧
        (r.status ≠ .ok → OnlyReports [.cursor 6] 0 { v with lens := { v.lens with
          state := .identifying, poll := .stopped, pollPending := false, identRetry := .running (b.now + 50000) } } u)) ∧
      (x.request = .status → ∃ u, exec (.lensExchangeEnd bytes) s = .next (arbitrate u) ∧
        (s.lens.state = .unresponsive → OnlyReports [.cursor 6] 0
          { v with lens := { v.lens with state := .ready, poll := .stopped, pollPending := false } } u) ∧
        (s.lens.state ≠ .unresponsive → OnlyReports [.cursor 6] 0 v u)) ∧
      (∀ target speed, x.request = .drive target speed → ∃ u, exec (.lensExchangeEnd bytes) s = .next (arbitrate u) ∧
        OnlyReports [.cursor 6] 0 { v with lens := { v.lens with
          drive := if r.status = .busy then s.lens.drive.or (some target) else s.lens.drive
          stopPending := s.lens.stopPending || (x.judgeStop && r.report.moving) } } u) ∧
      (x.request = .stop → ∃ u, exec (.lensExchangeEnd bytes) s = .next (arbitrate u) ∧ OnlyReports [.cursor 6] 0 v u) ∧
      (∀ m code, x.request = .message m →
        code = (match r.status with
          | .ok => 0
          | .busy => 1
          | .refused => 2) →
        ∃ u, exec (.lensExchangeEnd bytes) s = .next (arbitrate u) ∧ OnlyReports [.cursor 6, .cursor 3] 1 v u ∧
          NoticeRecorded 1 (replyNotice m code r.data) s u)) ∧
    (judgeReply x.request bytes = none →
      (s.lens.state = .unresponsive → x.request = .status ∨ x.request = .ident →
        exec (.lensExchangeEnd bytes) s = .next (arbitrate b)) ∧
      (s.lens.state = .ready ∨ s.lens.state = .identifying →
        (s.lens.timeouts < 2 →
          ((∀ m, x.request ≠ .message m) → exec (.lensExchangeEnd bytes) s = .next (arbitrate { b with lens := { b.lens with
            timeouts := s.lens.timeouts + 1
            drive := (match x.request with
              | .drive target _ => s.lens.drive.or (some target)
              | _ => s.lens.drive)
            identPending :=
              s.lens.identPending || (decide (x.request = .ident) && decide (s.lens.state = .identifying)) } })) ∧
          (∀ m, x.request = .message m → ∃ u, exec (.lensExchangeEnd bytes) s = .next (arbitrate u) ∧
            OnlyReports [.cursor 3] 1 { b with lens := { b.lens with timeouts := s.lens.timeouts + 1 } } u ∧
            NoticeRecorded 0 (replyNotice m 3 []) s u)) ∧
        (s.lens.timeouts = 2 → ∃ u, exec (.lensExchangeEnd bytes) s = .next (arbitrate u) ∧
          (s.lens.pollPending = false → arbitrate u = u) ∧
          u.lens = { b.lens with
            state := .unresponsive, timeouts := 3, drive := none, messages := [], statusPending := false
            stopPending := false, identPending := false, identRetry := .stopped, poll := .running (b.now + 50000) } ∧
          u.now = b.now ∧ u.shots = s.shots ∧
          (s.lens.messages = [] → (∀ m, x.request ≠ .message m) →
            OnlyReports [.cursor 6, .cursor 3] 1 { b with lens := u.lens } u ∧
            NoticeRecorded 1
              { kind := .lensFault, window := 0xFF, seq := 0, subject := 0,
                details := [x.request.code] ++
                  (match s.lens.report with
                    | none => [0, 0, 0, 0]
                    | some p => [1] ++ leBytes 2 p.position ++ [if p.moving then 1 else 0]) ++
                  [if s.lens.info.isSome then 1 else 0]
                fault := none } s u))))

/-- R102, R107: the IDENT retry timer's expiry sends IDENT again, and the poll timer's sends a poll and restarts the timer,
when the line is idle. The times of the clock are the model's choice (log 5). -/
def Obligations.LensTimersSendRequests : Prop :=
  ∀ (s : State) (d : Nat), s.lens.exchange = none →
    (s.lens.state = .identifying → s.lens.identRetry = .running d →
      ∃ t, exec .identRetryTimerExpiry s = .next t ∧ t.lens.identRetry = .stopped ∧ t.lens.state = .identifying ∧
        t.lens.exchange =
          some { request := .ident, frame := [1, 1], since := max s.now d, judgeStop := false } ∧
        t.now = max s.now d ∧ t.shots = s.shots ∧ t.mem = s.mem) ∧
    (s.lens.state = .unresponsive → s.lens.poll = .running d →
      ∃ t, exec .pollTimerExpiry s = .next t ∧ t.lens.poll = .running (max s.now d + 50000) ∧
        t.lens.state = .unresponsive ∧
        t.lens.exchange = some
          { request := if s.lens.info.isSome then .status else .ident
            frame := if s.lens.info.isSome then [2, 2] else [1, 1]
            since := max s.now d
            judgeStop := false } ∧
        t.now = max s.now d ∧ t.shots = s.shots ∧ t.mem = s.mem)

/-! ### Development -/

/-- R116: LOAD TONE replaces a tone table that is not in use, and refuses BAD-PARAM another index and BUSY a table in use. -/
def Obligations.LoadToneReplacesTable : Prop :=
  ∀ (s : State) (o : OrderRecord) (img : List Byte), dispatchedOrder s .loadTone = some (o, img) →
    (2 ≤ field o.params 0 1 → exec .loadTone s = .next (finishOrder s o .badParam)) ∧
    (∀ k : Fin 2, field o.params 0 1 = k.val →
      (toneInUse s k.val = true → exec .loadTone s = .next (finishOrder s o .busy)) ∧
      (toneInUse s k.val = false →
        ∃ u, exec .loadTone s = .next (finishOrder u o .done) ∧ { u with engine := s.engine } = s ∧
          { u.engine with tones := s.engine.tones } = s.engine ∧
          (∀ i : Fin 257, (u.engine.tones.get k).get i = field img i.val 1) ∧
          ∀ j, j ≠ k → u.engine.tones.get j = s.engine.tones.get j))

/-- R17, R138: REDEVELOP of a SEALED, developed shot: BUSY while inline, replaying or sending; FULL without a place or without
the shortfall; otherwise, for a shot whose development is DONE or FAILED, the record takes the new set and a DEVELOP job with it joins
the tail, which an IDLE engine with no other work begins (R127, R132). -/
def Obligations.RedevelopQueuesJob : Prop :=
  ∀ (s : State) (o : OrderRecord) (img : List Byte) (w : Fin 64) (d : DevSet),
    dispatchedOrder s .redevelop = some (o, img) → Names s o w → (s.shot w).state = .sealed →
    (s.shot w).devSet = some d → (s.shot w).developed = true → field o.params 24 1 ≤ 1 →
    ((s.shot w).dev = .inline ∨ (s.shot w).dev = .replaying ∨ (s.shot w).tether = .sending →
      exec .redevelop s = .next (finishOrder s o .busy)) ∧
    ((s.shot w).dev = .done ∨ (s.shot w).dev = .failed → (s.shot w).tether ≠ .sending →
      (16 ≤ s.engine.queue.length ∨ available s < shortfall (s.shot w) →
        exec .redevelop s = .next (finishOrder s o .full)) ∧
      (s.engine.queue.length < 16 → shortfall (s.shot w) ≤ available s → s.engine.activity ≠ .idle →
        ∃ u, exec .redevelop s = .next (finishOrder u o .done) ∧ (u.shot w).dev = .queued ∧
          (u.shot w).reason = none ∧ (u.shot w).devSet = some (newSet o d) ∧ (newSet o d).scale = d.scale ∧
          (u.shot w).reservation = (s.shot w).reservation + shortfall (s.shot w) ∧
          (u.shot w).hist = (s.shot w).hist ∧
          u.engine.queue = s.engine.queue ++
            [{ window := w, seq := (s.shot w).seq, kind := .develop, set := some (newSet o d), nextRow := 0,
               begun := false, saved := none }] ∧
          ∀ v, v ≠ w → u.shot v = s.shot v) ∧
      (∀ p, s.engine.queue = [] → shortfall (s.shot w) ≤ available s → s.engine.activity = .idle →
        (∀ v, (s.shot v).dev ≠ .inline) → (s.shot w).profile = some p →
        ∃ u, exec .redevelop s = .next (finishOrder u o .done) ∧ (u.shot w).reason = none ∧
          (u.shot w).devSet = some (newSet o d) ∧
          (u.shot w).reservation = (s.shot w).reservation + shortfall (s.shot w) ∧
          JobBegun s u
            { window := w, seq := (s.shot w).seq, kind := .develop, set := some (newSet o d), nextRow := 0,
              begun := false, saved := none } [] p ∧
          ∀ v, v ≠ w → u.shot v = s.shot v))

/-- R6, R7, R125, R126, R129, R136: a line that does not complete an output row joins the row being formed, and nothing else changes.
With places for its lines and its granules mapped, a completed row is counted and inserted through the preview map, and nothing else
changes; with one granule still to be mapped, the head of the free queue fills that entry first, against the shot's reservation; the
row of the last line ends the job, whose histograms and clip counts pass to the record with status DONE, and the engine becomes IDLE or
begins or resumes the head job of the replay queue (R127, R132). -/
def Obligations.InlineLineJoinsRow : Prop :=
  ∀ (s : State) (w : Fin 64) (p : Profile) (d : DevSet) (e : FifoEntry) (rest : List FifoEntry),
    s.engine.activity = .inline w → s.engine.run.rowWaits = false → s.taps.fifo = e :: rest →
    (s.shot w).profile = some p → (s.shot w).devSet = some d → s.engine.stop ≠ some w →
    ((e.line + 1) % (2 * d.scale * linesPerRow p.width) ≠ 0 → previewWaits s = false → e.line + 1 ≠ p.lines →
      exec .inlineLineConsumed s = .next { s with
        taps := { s.taps with fifo := rest }
        engine := { s.engine with
          run := { s.engine.run with nextLine := e.line + 1, acc := s.engine.run.acc ++ e.data } } }) ∧
    (∀ row lines g n more res, RowOf s p d e.line (s.engine.run.acc ++ e.data) row lines → e.line + 1 ≠ p.lines →
      (∀ l ∈ lines, (s.previewEntry w (l.1 / Config.granule)).isSome = true ∨ l.1 / Config.granule = g) →
      (∃ l ∈ lines, l.1 / Config.granule = g) → (s.mapsOf w).preview[g]? = some none → s.pool.free = n :: more →
      (s.shot w).reservation = res + 1 → s.port.work = [] → s.port.writes.length + lines.length + 2 ≤ 32 →
      ∃ t, exec .inlineLineConsumed s = .next t ∧ t.previewEntry w g = some n ∧ t.pool.free = more ∧
        t.shot w = { s.shot w with reservation := res, previewMapped := (s.shot w).previewMapped + 1 } ∧
        (∀ v, v ≠ w → t.shot v = s.shot v ∧ t.mapsOf v = s.mapsOf v) ∧
        (t.mapsOf w).raw = (s.mapsOf w).raw ∧ (∀ h, h ≠ g → t.previewEntry w h = s.previewEntry w h) ∧
        (lines.map fun l => (previewAddr t w l.1, l.2.1, l.2.2)).Sublist
          ((t.port.writes.drop s.port.writes.length).map fun x => (x.addr, x.data, x.mask)) ∧
        OnlyReports ([.mirror w 1, .cursor 2] ++ lines.map fun l => .preview (previewAddr t w l.1) l.2.1 l.2.2) 0
          { s with
            pool := { s.pool with free := more }
            maps := t.maps
            shots := t.shots
            taps := { s.taps with fifo := rest }
            engine := { s.engine with run := { s.engine.run with
              nextLine := e.line + 1
              acc := []
              hist := row.foldl countPixel s.engine.run.hist
              clip := row.foldl countClip s.engine.run.clip } } } t) ∧
    (∀ row lines, RowOf s p d e.line (s.engine.run.acc ++ e.data) row lines →
      (∀ l ∈ lines, (s.previewEntry w (l.1 / Config.granule)).isSome = true) → s.port.work = [] →
      s.port.writes.length + lines.length ≤ 32 →
      (e.line + 1 ≠ p.lines →
        ∃ t, exec .inlineLineConsumed s = .next t ∧ LinesInserted s t w lines ∧
          { t with mem := s.mem, port := s.port, engine := s.engine, taps := s.taps } = s ∧
          t.taps = { s.taps with fifo := rest } ∧
          t.engine = { s.engine with run := { s.engine.run with
            nextLine := e.line + 1
            acc := []
            hist := row.foldl countPixel s.engine.run.hist
            clip := row.foldl countClip s.engine.run.clip } }) ∧
      (e.line + 1 = p.lines → s.engine.queue = [] → (∀ v, v ≠ w → (s.shot v).dev ≠ .inline) →
        ({ s.shot w with dev := .done } : Shot).releasable = false →
        ∃ t, exec .inlineLineConsumed s = .next t ∧ t.taps = { s.taps with fifo := rest } ∧ t.maps = s.maps ∧
          t.pool.free = s.pool.free ∧ (∀ v, v ≠ w → t.shot v = s.shot v) ∧
          t.shot w = { s.shot w with
            dev := .done, reason := none, checkOnly := false, reservation := 0
            hist := row.foldl countPixel s.engine.run.hist
            clip := row.foldl countClip s.engine.run.clip } ∧
          t.engine = { s.engine with activity := .idle, run := freshRun, replayLine := .none }) ∧
      (∀ j more q, e.line + 1 = p.lines → s.engine.queue = j :: more → j.window ≠ w →
        (s.shot j.window).state ≠ .capturing → (s.shot j.window).profile = some q → (∀ v, v ≠ w → (s.shot v).dev ≠ .inline) →
        ({ s.shot w with dev := .done } : Shot).releasable = false →
        ∃ t, exec .inlineLineConsumed s = .next t ∧ JobBegun s t j more q ∧ (t.shot w).dev = .done ∧
          (t.shot w).reservation = 0 ∧ (t.shot w).hist = row.foldl countPixel s.engine.run.hist ∧
          t.shot j.window = { s.shot j.window with dev := .replaying } ∧ t.maps = s.maps ∧
          ∀ v, v ≠ w → v ≠ j.window → t.shot v = s.shot v))

/-- R97, R132 to R134, R136: a returned line outside the replay still accumulation goes to the running CRC, and in a DEVELOP job to the
row being formed; a completed row is counted and inserted through the preview map. The next line is asked for, at a boundary with the
job's next input row advanced. With suspend set a boundary makes the job QUEUED again with its progress, and the waiting inline job
begins. That the job reads one line at a time is the model's choice (log 10). The last
line of a CHECK job settles the status, and that of a DEVELOP job whose last row can be inserted makes it DONE with the job's
histograms and clip counts; a running CRC becomes the shot's with origin REPLAY, and the job leaves the queue. -/
def Obligations.ReplayLineFeedsCheck : Prop :=
  ∀ (s t : State) (j : Job) (rest : List Job) (p : Profile) (data : List Byte) (run : Running),
    s.engine.activity = .replay → s.engine.queue = j :: rest → s.engine.run.rowWaits = false →
    returnedLine s = some (data, t) → (s.shot j.window).profile = some p →
    s.engine.run.still = none → previewWaits s = false → s.engine.stop ≠ some j.window →
    run = { s.engine.run with
      nextLine := s.engine.run.nextLine + 1, crc := s.engine.run.crc.map fun r => crcBytes r data } →
    (j.kind = .check → run.nextLine ≠ p.lines →
      (boundaryAt p j run.nextLine = false ∨ s.engine.suspend = false →
        ∃ u, exec .replayLineReturned s = .next u ∧ LineAsked s u j rest p run ∧
          u.shots = s.shots ∧ u.maps = s.maps ∧ u.pool = s.pool ∧ u.mem = s.mem) ∧
      (∀ v, boundaryAt p j run.nextLine = true → s.engine.suspend = true → inlineShot s = some v →
        (s.shot j.window).dev = .replaying →
        ∃ u, exec .replayLineReturned s = .next u ∧ JobSuspended s u j rest p run v ∧ u.maps = s.maps ∧ u.pool = s.pool)) ∧
    (∀ d, j.kind = .develop → j.set = some d → d.scale = p.devSet.scale → run.nextLine ≠ p.lines →
      (run.nextLine % (2 * d.scale * linesPerRow p.width) ≠ 0 →
        ∃ u, exec .replayLineReturned s = .next u ∧ LineAsked s u j rest p { run with acc := s.engine.run.acc ++ data } ∧
          u.shots = s.shots ∧ u.maps = s.maps ∧ u.pool = s.pool ∧ u.mem = s.mem) ∧
      (∀ row lines formed, RowOf s p d s.engine.run.nextLine (s.engine.run.acc ++ data) row lines →
        (∀ l ∈ lines, (s.previewEntry j.window (l.1 / Config.granule)).isSome = true) → s.port.work = [] →
        s.port.writes.length + lines.length ≤ 32 →
        formed = { run with
          acc := [], hist := row.foldl countPixel s.engine.run.hist, clip := row.foldl countClip s.engine.run.clip } →
        (s.engine.suspend = false →
          ∃ u, exec .replayLineReturned s = .next u ∧ LineAsked s u j rest p formed ∧
            u.shots = s.shots ∧ u.maps = s.maps ∧ u.pool = s.pool ∧
            u.mem = lines.foldl (fun m l => m.writeLine (previewAddr s j.window l.1) l.2.1 l.2.2) s.mem ∧
            (u.port.writes.drop s.port.writes.length).map (fun x => (x.addr, x.data, x.mask)) =
              lines.map fun l => (previewAddr s j.window l.1, l.2.1, l.2.2)) ∧
        (∀ v, s.engine.suspend = true → inlineShot s = some v → (s.shot j.window).dev = .replaying →
          ∃ u, exec .replayLineReturned s = .next u ∧ JobSuspended s u j rest p formed v ∧
            u.maps = s.maps ∧ u.pool = s.pool ∧
            (lines.map fun l => (previewAddr s j.window l.1, l.2.1, l.2.2)) <+:
              (u.port.writes.drop s.port.writes.length).map fun x => (x.addr, x.data, x.mask)))) ∧
    (s.engine.run.nextLine + 1 = p.lines → rest = [] → (∀ v, v ≠ j.window → (s.shot v).dev ≠ .inline) →
      (s.shot j.window).tether ≠ .undecided →
      (j.kind = .check → ∀ x : Shot,
        x = { s.shot j.window with
          dev := if (s.shot j.window).developed then .failed else .none
          checkOnly := false
          reservation := 0
          hist := if (s.shot j.window).developed then zeroHist else (s.shot j.window).hist
          clip := if (s.shot j.window).developed then ⟨0, 0, 0⟩ else (s.shot j.window).clip
          crc := match s.engine.run.crc with
            | none => (s.shot j.window).crc
            | some r => some (crcFinish (crcBytes r data), .replay) } →
        x.releasable = false →
        ∃ u, exec .replayLineReturned s = .next u ∧ u.shot j.window = x ∧
          (∀ v, v ≠ j.window → u.shot v = s.shot v) ∧ u.maps = s.maps ∧ u.pool.free = s.pool.free ∧
          u.engine = { s.engine with
            activity := .idle, run := freshRun, replayLine := .none, queue := [], suspend := false }) ∧
      (∀ d row lines, j.kind = .develop → j.set = some d →
        RowOf s p d s.engine.run.nextLine (s.engine.run.acc ++ data) row lines →
        (∀ l ∈ lines, (s.previewEntry j.window (l.1 / Config.granule)).isSome = true) → s.port.work = [] →
        s.port.writes.length + lines.length ≤ 32 →
        ({ s.shot j.window with dev := .done } : Shot).releasable = false →
        ∃ u, exec .replayLineReturned s = .next u ∧
          u.shot j.window = { s.shot j.window with
            dev := .done, reason := none, checkOnly := false, reservation := 0
            hist := row.foldl countPixel s.engine.run.hist
            clip := row.foldl countClip s.engine.run.clip
            crc := match s.engine.run.crc with
              | none => (s.shot j.window).crc
              | some r => some (crcFinish (crcBytes r data), .replay) } ∧
          (∀ v, v ≠ j.window → u.shot v = s.shot v) ∧ u.maps = s.maps ∧ u.pool.free = s.pool.free ∧
          u.engine = { s.engine with
            activity := .idle, run := freshRun, replayLine := .none, queue := [], suspend := false }))

/-- R124: with entries of 0..255, a toned value lies between the two table entries about it, and so within 0..255. -/
def Obligations.ToneStaysWithinTable : Prop :=
  ∀ (t : Vector Nat 257) (x : Nat), (∀ i : Fin 257, t.get i ≤ 255) → x ≤ 65535 →
    min (toneEntry t (x / 256)) (toneEntry t (x / 256 + 1)) ≤ toned t x ∧
    toned t x ≤ max (toneEntry t (x / 256)) (toneEntry t (x / 256 + 1)) ∧ toned t x ≤ 255

/-! ### Card and tether -/

/-- R144, R146, R147: CARD DONE and CARD RETRY, with the checks in their order; a shot that something else keeps stays after CARD
DONE, and any other is released (R43). -/
def Obligations.CardOrdersChangeCardStatus : Prop :=
  ∀ (s : State) (o : OrderRecord) (img : List Byte) (w : Fin 64), Names s o w →
    (dispatchedOrder s .cardDone = some (o, img) →
      ((s.shot w).state ≠ .sealed ∨ ((s.shot w).card ≠ .reading ∧ (s.shot w).card ≠ .failed) →
        exec .cardDone s = .next (finishOrder s o .state)) ∧
      ((s.shot w).state = .sealed → ((s.shot w).card = .reading ∨ (s.shot w).card = .failed) →
        ((s.shot w).cardBytes < (s.shot w).rawLength → exec .cardDone s = .next (finishOrder s o .tooEarly)) ∧
        ((s.shot w).rawLength ≤ (s.shot w).cardBytes → (s.shot w).card = .failed → flagAt o.params 0 = false →
          exec .cardDone s = .next (finishOrder s o .verifyFailed)) ∧
        ((s.shot w).rawLength ≤ (s.shot w).cardBytes → ((s.shot w).card = .reading ∨ flagAt o.params 0 = true) →
          (({ s.shot w with card := .done } : Shot).releasable = false →
            ∃ u, exec .cardDone s = .next (finishOrder u o .done) ∧ verifyOf u w = none ∧ u.pool = s.pool ∧
              u.maps = s.maps ∧ (∀ v, v ≠ w → u.shot v = s.shot v) ∧
              u.shot w = { s.shot w with
                card := .done
                verify := if (verifyOf s w).isSome then .unverified else (s.shot w).verify }) ∧
          (({ s.shot w with card := .done } : Shot).releasable = true →
            ∃ u, exec .cardDone s = .next (finishOrder u o .done) ∧ verifyOf u w = none ∧ Freed s u w)))) ∧
    (dispatchedOrder s .cardRetry = some (o, img) →
      ((s.shot w).state ≠ .sealed ∨ ((s.shot w).card ≠ .reading ∧ (s.shot w).card ≠ .failed)) →
      exec .cardRetry s = .next (finishOrder s o .state)) ∧
    (dispatchedOrder s .cardRetry = some (o, img) → (s.shot w).state = .sealed →
      ((s.shot w).card = .reading ∨ (s.shot w).card = .failed) →
      ∃ u, exec .cardRetry s = .next (finishOrder u o .done) ∧ verifyOf u w = none ∧ u.pool = s.pool ∧
        u.maps = s.maps ∧ (∀ v, v ≠ w → u.shot v = s.shot v) ∧
        u.shot w = { s.shot w with card := .pending, cardBytes := 0, verify := .none })

/-- R151 to R153: SET SELECTION refuses a table with a value out of range, and otherwise replaces all 16 rules and puts each SEALED shot
that is UNDECIDED with its inputs present under the new table, in ascending order of sequence number. A selected one joins the tether
queue; any other becomes NOT-SELECTED, and is released when nothing else keeps it (R43). No other shot changes. -/
def Obligations.SelectionTableReplaced : Prop :=
  ∀ (s : State) (o : OrderRecord) (img : List Byte), dispatchedOrder s .setSelection = some (o, img) →
    (decodeRules img = none → exec .setSelection s = .next (finishOrder s o .badParam)) ∧
    (∀ rules t, decodeRules img = some rules → t = { s with tether := { s.tether with rules := rules } } →
      ((∀ w, (s.shot w).state = .sealed → (s.shot w).tether = .undecided → (s.shot w).inputsPresent = false) →
        exec .setSelection s = .next (finishOrder t o .done)) ∧
      (∀ (ws : List (Fin 64)) (released : Fin 64 → Bool), ws.Pairwise (fun v w => (s.shot v).seq < (s.shot w).seq) →
        (∀ w, w ∈ ws ↔ (s.shot w).state = .sealed ∧ (s.shot w).tether = .undecided ∧ (s.shot w).inputsPresent = true) →
        (∀ w, released w = ((selected t (s.shot w)).isNone && ({ s.shot w with tether := .notSelected } : Shot).releasable)) →
        ∃ u, exec .setSelection s = .next (finishOrder u o .done) ∧ u.tether.rules = rules ∧
          (∀ v, v ∉ ws → u.shot v = s.shot v ∧ u.mapsOf v = s.mapsOf v) ∧
          (∀ w ∈ ws, released w = true → u.shot w = freeShot ∧ u.mapsOf w = emptyMaps) ∧
          (∀ w ∈ ws, released w = false → u.mapsOf w = s.mapsOf w ∧
            (selected t (s.shot w) = none →
              u.shot w = { s.shot w with tether := .notSelected, sendWhat := none }) ∧
            (∀ send, selected t (s.shot w) = some send → u.shot w = { s.shot w with
              tether := .queued, sendWhat := some (degrade (s.shot w) send), tetherRaw := 0, tetherPreview := 0 })) ∧
          u.pool.free = s.pool.free ++
            (ws.filter released).flatMap (fun w => mappedGranules (s.mapsOf w)) ∧
          ((∀ w ∈ ws, released w = false) → u.pool = s.pool) ∧
          u.tether.queue = ws.foldl (fun q w =>
            match selected t (s.shot w) with
            | none => q
            | some send => insertEntry q
                { window := w, seq := (s.shot w).seq, send := degrade (s.shot w) send, urgent := (s.shot w).urgent,
                  ready := readyFlag (s.shot w) (degrade (s.shot w) send), forced := false }) s.tether.queue ∧
          ((∀ w ∈ ws, selected t (s.shot w) = none) → u.tether.head = s.tether.head) ∧
          ((∃ w ∈ ws, (selected t (s.shot w)).isSome = true) → u.tether.head = tetherHeadOf u)))

/-- R43, R159, R160: TETHER DONE is refused TOO-EARLY for a part sent but not covered. The preview part of a PREVIEW-THEN-RAW entry
leaves the entry QUEUED for RAW at the end of its class (that a RATE while SENDING leaves that class as it is, is the model's
reading, log 26). Any other part ends the entry: it leaves, send-what becomes absent, the status is the outcome, and the shot is
released when nothing else keeps it. -/
def Obligations.TetherDoneEndsEntry : Prop :=
  ∀ (s : State) (o : OrderRecord) (img : List Byte) (w : Fin 64) (p : TetherPart) (outcome : TetherStatus)
    (send : SendWhat),
    dispatchedOrder s .tetherDone = some (o, img) → Names s o w → (s.shot w).state = .sealed →
    ((s.shot w).tether = .queued ∨ (s.shot w).tether = .sending) → (s.shot w).sendWhat = some send →
    tetherPartOf (field o.params 0 1) = some p → tetherOutcomeOf (field o.params 1 1) = some outcome →
    p.carriedBy send = true →
    (outcome = .sent → tetherCovered (s.shot w) p send = false →
      exec .tetherDone s = .next (finishOrder s o .tooEarly)) ∧
    (outcome = .abandoned ∨ tetherCovered (s.shot w) p send = true →
      (∀ e, p = .preview → send = .previewThenRaw → tetherEntry s w = some e →
        ∃ u, exec .tetherDone s = .next (finishOrder u o .done) ∧ OthersKept s u w ∧
          u.shot w = { s.shot w with tether := .queued, sendWhat := some .raw } ∧
          u.tether.queue = insertEntry (s.tether.queue.filter fun q => q.window ≠ w)
            { e with send := .raw, ready := true } ∧
          u.tether.rules = s.tether.rules) ∧
      (p ≠ .preview ∨ send ≠ .previewThenRaw →
        (({ s.shot w with tether := outcome } : Shot).releasable = false →
          ∃ u, exec .tetherDone s = .next (finishOrder u o .done) ∧ OthersKept s u w ∧
            u.shot w = { s.shot w with tether := outcome, sendWhat := none } ∧
            u.tether.queue = s.tether.queue.filter (fun e => e.window ≠ w) ∧ u.tether.rules = s.tether.rules) ∧
        (({ s.shot w with tether := outcome } : Shot).releasable = true →
          ∃ u, exec .tetherDone s = .next (finishOrder u o .done) ∧ Freed s u w ∧
            u.tether.queue = s.tether.queue.filter (fun e => e.window ≠ w))))

/-- R153, R154, R162: SEND NOW puts a NOT-SELECTED, SENT or ABANDONED shot at the end of the URGENT class with the forced mark,
its send-what degraded and its counts 0; in another tether status, or for a shot that is not SEALED, it is refused STATE, and with a
send-what of no code BAD-PARAM. -/
def Obligations.SendNowJoinsUrgentClass : Prop :=
  ∀ (s : State) (o : OrderRecord) (img : List Byte) (w : Fin 64),
    dispatchedOrder s .sendNow = some (o, img) → Names s o w →
    (sendWhatOf (field o.params 0 1) = none → exec .sendNow s = .next (finishOrder s o .badParam)) ∧
    (∀ send, sendWhatOf (field o.params 0 1) = some send →
      ((s.shot w).state ≠ .sealed ∨ (s.shot w).tether = .notRequired ∨ (s.shot w).tether = .undecided ∨
        (s.shot w).tether = .queued ∨ (s.shot w).tether = .sending →
        exec .sendNow s = .next (finishOrder s o .state)) ∧
      ((s.shot w).state = .sealed → ((s.shot w).tether = .notSelected ∨ (s.shot w).tether = .sent ∨
          (s.shot w).tether = .abandoned) →
        ∃ u, exec .sendNow s = .next (finishOrder u o .done) ∧
          u.shot w = { s.shot w with
            tether := .queued, sendWhat := some (degrade (s.shot w) send), tetherRaw := 0, tetherPreview := 0 } ∧
          (∀ v, v ≠ w → u.shot v = s.shot v) ∧ u.pool = s.pool ∧ u.maps = s.maps ∧
          u.tether.queue = s.tether.queue.filter (fun e => e.urgent) ++
            [{ window := w, seq := (s.shot w).seq, send := degrade (s.shot w) send, urgent := true,
               ready := readyFlag (s.shot w) (degrade (s.shot w) send), forced := true }] ++
            s.tether.queue.filter (fun e => !e.urgent)))

/-! ### The attention line -/

/-- R174 to R176: SET NOTICE refuses a value out of range and otherwise replaces the four settings and has the condition evaluated, with
the line starting anew where the mode changes; the age of the oldest notice makes the condition stand, and the line moves as the mode
says; the end of a pulse ends it. The times of the clock are the model's choice (log 5). -/
def Obligations.AttentionFollowsSettings : Prop :=
  ∀ s : State,
    (∀ o img, dispatchedOrder s .setNotice = some (o, img) →
      (field o.params 0 1 = 0 ∨ 64 < field o.params 0 1 ∨ field o.params 4 1 = 0 ∨ 1 < field o.params 3 1 →
        exec .setNotice s = .next (finishOrder s o .badParam)) ∧
      (∀ m, attentionModeOf (field o.params 3 1) = some m → 1 ≤ field o.params 0 1 → field o.params 0 1 ≤ 64 →
        1 ≤ field o.params 4 1 →
        ∃ u, exec .setNotice s = .next (finishOrder u o .done) ∧ u.notice.batch = field o.params 0 1 ∧
          u.notice.age = field o.params 1 2 ∧ u.notice.mode = m ∧ u.notice.pulseLength = field o.params 4 1 ∧
          AttentionEvaluated
            { s.notice with
              mode := m
              pulseLength := field o.params 4 1
              standing := decide (s.notice.mode = m) && s.notice.standing
              line := decide (s.notice.mode = m) && s.notice.line
              pulse := if s.notice.mode = m then s.notice.pulse else .stopped }
            (attentionCondition u) s.now u.notice ∧
          u.notice.unconsumed = s.notice.unconsumed ∧ u.notice.writeIndex = s.notice.writeIndex ∧
          { u with notice := s.notice } = s)) ∧
    (∀ m more, s.phase = .started → s.notice.unconsumed = m :: more → 0 < s.notice.age →
      ∃ t, exec .noticeAgeExpiry s = .next t ∧ AttentionEvaluated s.notice true t.now t.notice ∧
        { t.notice with standing := s.notice.standing, line := s.notice.line, pulse := s.notice.pulse } = s.notice ∧
        t.now = max s.now (m.time + s.notice.age) ∧ { t with notice := s.notice, now := s.now } = s) ∧
    (∀ d, s.notice.pulse = .running d →
      exec .attentionPulseEnd s = .next { s with
        now := max s.now d
        notice := { s.notice with line := false, pulse := .stopped } })
end

