-- ==== Sys2Proof/Laws/Memory.lean ====
section
/-! SUPPORT. DRAM as a canonical list: a write leaves every other byte alone, a read after a write gives what was written, and
every memory operation keeps the canonical form. -/

namespace Sys2Proof.Machine

set_option Elab.async false

/-! ### One byte -/

/-- A write leaves every other byte as it was. -/
theorem Memory.read_write_other (m : Memory) (a b : Nat) (v : Byte) (h : b ≠ a) : (m.write a v).read b = m.read b := by
  induction m with
  | nil =>
    simp only [Memory.write]
    split <;> simp [Memory.read, h]
  | cons c m ih =>
    obtain ⟨k, x⟩ := c
    simp only [Memory.write]
    split
    · split <;> simp [Memory.read, h]
    · split
      · next hk =>
        subst hk
        split <;> simp [Memory.read, h]
      · simp only [Memory.read, ih]

/-- Every listed address of a canonical list lies above the address it stands behind, and no listed byte is the unlisted one. -/
theorem Memory.wf_cons (k : Nat) (x : Byte) (m : Memory) :
    Memory.wf ((k, x) :: m) = true ↔ x ≠ unlistedByte ∧ (∀ c ∈ m, k < c.1) ∧ m.wf = true := by
  induction m generalizing k x with
  | nil => simp [Memory.wf]
  | cons c m ih =>
    obtain ⟨b, w⟩ := c
    simp only [Memory.wf, Bool.and_eq_true, bne_iff_ne, decide_eq_true_eq, List.mem_cons, forall_eq_or_imp]
    constructor
    · rintro ⟨⟨h1, h2⟩, h3⟩
      exact ⟨h1, ⟨h2, fun c hc => lt_trans h2 (((ih b w).1 h3).2.1 c hc)⟩, h3⟩
    · rintro ⟨h1, ⟨h2, _⟩, h3⟩
      exact ⟨⟨h1, h2⟩, h3⟩

/-- An address below every listed one reads as unlisted. -/
theorem Memory.read_below (m : Memory) (a : Nat) (h : ∀ c ∈ m, a < c.1) : m.read a = unlistedByte := by
  induction m with
  | nil => rfl
  | cons c m ih =>
    obtain ⟨k, x⟩ := c
    have hk : a ≠ k := Nat.ne_of_lt (h (k, x) (by simp))
    simp only [Memory.read, if_neg hk]
    exact ih fun c hc => h c (by simp [hc])

/-- A read after a write gives the byte written. -/
theorem Memory.read_write_same (m : Memory) (a : Nat) (v : Byte) (h : m.wf = true) : (m.write a v).read a = v := by
  induction m with
  | nil =>
    simp only [Memory.write]
    split
    · next hv => simp [Memory.read, hv]
    · simp [Memory.read]
  | cons c m ih =>
    obtain ⟨k, x⟩ := c
    obtain ⟨_, hlt, hm⟩ := (Memory.wf_cons k x m).1 h
    simp only [Memory.write]
    split
    · next hak =>
      split
      · next hv =>
        rw [hv]
        refine Memory.read_below _ _ fun c hc => ?_
        rcases List.mem_cons.1 hc with rfl | hc
        · exact hak
        · exact lt_trans hak (hlt c hc)
      · simp [Memory.read]
    · next hak =>
      split
      · next hk =>
        subst hk
        split
        · next hv => rw [hv]; exact Memory.read_below _ _ hlt
        · simp [Memory.read]
      · next hk => simp only [Memory.read, if_neg hk]; exact ih hm

/-- Addresses listed after a write are the written one and those listed before. -/
theorem Memory.mem_write (m : Memory) (a : Nat) (v : Byte) (c : Host.Cell) (h : c ∈ m.write a v) :
    c = (a, v) ∨ c ∈ m := by
  induction m with
  | nil =>
    simp only [Memory.write] at h
    split at h
    · simp at h
    · simpa using h
  | cons d m ih =>
    obtain ⟨k, x⟩ := d
    simp only [Memory.write] at h
    split at h
    · split at h
      · exact .inr h
      · exact (List.mem_cons.1 h)
    · split at h
      · split at h
        · exact .inr (List.mem_cons_of_mem _ h)
        · exact (List.mem_cons.1 h).imp id (List.mem_cons_of_mem _)
      · rcases List.mem_cons.1 h with rfl | h
        · exact .inr (by simp)
        · exact (ih h).imp id (List.mem_cons_of_mem _)

/-- A write keeps the canonical form. -/
theorem Memory.wf_write (m : Memory) (a : Nat) (v : Byte) (h : m.wf = true) : (m.write a v).wf = true := by
  induction m with
  | nil =>
    simp only [Memory.write]
    split
    · rfl
    · next hv => simpa [Memory.wf] using hv
  | cons c m ih =>
    obtain ⟨k, x⟩ := c
    obtain ⟨hx, hlt, hm⟩ := (Memory.wf_cons k x m).1 h
    simp only [Memory.write]
    split
    · next hak =>
      split
      · exact h
      · next hv =>
        refine (Memory.wf_cons a v _).2 ⟨hv, fun c hc => ?_, h⟩
        rcases List.mem_cons.1 hc with rfl | hc
        · exact hak
        · exact lt_trans hak (hlt c hc)
    · next hak =>
      split
      · next hk =>
        subst hk
        split
        · exact hm
        · next hv => exact (Memory.wf_cons a v m).2 ⟨hv, hlt, hm⟩
      · next hk =>
        refine (Memory.wf_cons k x _).2 ⟨hx, fun c hc => ?_, ih hm⟩
        rcases Memory.mem_write m a v c hc with rfl | hc
        · show k < a
          omega
        · exact hlt c hc

/-! ### A line -/

/-- The bytes of a line written one after another. -/
theorem Memory.foldl_write (data : List Byte) (mask : BitVec 64) (a : Nat) (l : List Nat) (m : Memory) (h : m.wf = true)
    (hl : l.Nodup) :
    (l.foldl (fun m i => if mask.getLsbD i then m.write (a + i) (data.getD i 0) else m) m).wf = true ∧
    ∀ b, (l.foldl (fun m i => if mask.getLsbD i then m.write (a + i) (data.getD i 0) else m) m).read b =
      if a ≤ b ∧ b - a ∈ l ∧ mask.getLsbD (b - a) then data.getD (b - a) 0 else m.read b := by
  induction l generalizing m with
  | nil => simp [h]
  | cons i l ih =>
    obtain ⟨hi, hl⟩ := List.nodup_cons.1 hl
    simp only [List.foldl_cons]
    by_cases hm : mask.getLsbD i
    · simp only [hm, if_true]
      obtain ⟨h1, h2⟩ := ih (m.write (a + i) (data.getD i 0)) (Memory.wf_write _ _ _ h) hl
      refine ⟨h1, fun b => ?_⟩
      rw [h2 b]
      by_cases hb : b = a + i
      · subst hb
        simp [hi, hm, Memory.read_write_same _ _ _ h]
      · rw [Memory.read_write_other _ _ _ _ hb]
        have hne : a ≤ b → b - a ≠ i := by omega
        by_cases hab : a ≤ b
        · simp [hab, hne hab]
        · simp [hab]
    · simp only [hm, Bool.false_eq_true, if_false]
      obtain ⟨h1, h2⟩ := ih m h hl
      refine ⟨h1, fun b => ?_⟩
      rw [h2 b]
      by_cases hb : b - a = i
      · simp [hb, hi, hm]
      · simp [hb]

/-- A masked write of a line keeps the canonical form. -/
theorem Memory.wf_writeLine (m : Memory) (a : Nat) (data : List Byte) (mask : BitVec 64) (h : m.wf = true) :
    (m.writeLine a data mask).wf = true :=
  (Memory.foldl_write data mask a (List.range 64) m h List.nodup_range).1

/-- R47, R52: what every byte reads as after a masked write of a line. -/
theorem Memory.read_writeLine (m : Memory) (a : Nat) (data : List Byte) (mask : BitVec 64) (h : m.wf = true) (b : Nat) :
    (m.writeLine a data mask).read b =
      if a ≤ b ∧ b < a + 64 ∧ mask.getLsbD (b - a) then data.getD (b - a) 0 else m.read b := by
  rw [Memory.writeLine, (Memory.foldl_write data mask a (List.range 64) m h List.nodup_range).2 b]
  have : (a ≤ b ∧ b - a ∈ List.range 64 ∧ mask.getLsbD (b - a)) ↔ (a ≤ b ∧ b < a + 64 ∧ mask.getLsbD (b - a)) := by
    simp only [List.mem_range]
    constructor <;> rintro ⟨h1, h2, h3⟩ <;> exact ⟨h1, by omega, h3⟩
  simp only [this]

/-- A write of a line leaves every byte that it does not select as it was, whatever the list's form. -/
theorem Memory.read_writeLine_other (m : Memory) (a : Nat) (data : List Byte) (mask : BitVec 64) (b : Nat)
    (h : ∀ i, i < 64 → mask.getLsbD i = true → b ≠ a + i) : (m.writeLine a data mask).read b = m.read b := by
  have key : ∀ (l : List Nat) (m : Memory), (∀ i ∈ l, i < 64) →
      (l.foldl (fun m i => if mask.getLsbD i then m.write (a + i) (data.getD i 0) else m) m).read b = m.read b := by
    intro l
    induction l with
    | nil => intro m _; rfl
    | cons i l ih =>
      intro m hl
      simp only [List.foldl_cons]
      rw [ih _ fun j hj => hl j (List.mem_cons_of_mem _ hj)]
      split
      · next hm => exact Memory.read_write_other _ _ _ _ (h i (hl i (by simp)) hm)
      · rfl
  exact key _ _ fun i hi => List.mem_range.1 hi

/-- The memory after power-on reset is canonical. -/
theorem powerOn_mem_wf (caSel memSize : BitVec 2) (pin : Bool) (pending : List Instr) :
    (State.powerOn caSel memSize pin pending).mem.wf = true := rfl

/-- The memory of the reset state is canonical. -/
theorem reset_mem_wf : State.reset.mem.wf = true := rfl

end Sys2Proof.Machine
end

