-- ==== Sys2Proof/Laws/State.lean ====
section
/-! SUPPORT. What each update of the state leaves as it was: one lemma per field per update, true by `rfl`. -/

namespace Sys2Proof.Machine

set_option Elab.async false

variable (s : State)

/-! ### `State.setShot` -/

@[simp] theorem State.setShot_phase (w : Fin 64) (x : Shot) : (s.setShot w x).phase = s.phase := rfl
@[simp] theorem State.setShot_caSel (w : Fin 64) (x : Shot) : (s.setShot w x).caSel = s.caSel := rfl
@[simp] theorem State.setShot_memSize (w : Fin 64) (x : Shot) : (s.setShot w x).memSize = s.memSize := rfl
@[simp] theorem State.setShot_lensPin (w : Fin 64) (x : Shot) : (s.setShot w x).lensPin = s.lensPin := rfl
@[simp] theorem State.setShot_now (w : Fin 64) (x : Shot) : (s.setShot w x).now = s.now := rfl
@[simp] theorem State.setShot_mem (w : Fin 64) (x : Shot) : (s.setShot w x).mem = s.mem := rfl
@[simp] theorem State.setShot_link (w : Fin 64) (x : Shot) : (s.setShot w x).link = s.link := rfl
@[simp] theorem State.setShot_port (w : Fin 64) (x : Shot) : (s.setShot w x).port = s.port := rfl
@[simp] theorem State.setShot_maps (w : Fin 64) (x : Shot) : (s.setShot w x).maps = s.maps := rfl
@[simp] theorem State.setShot_pool (w : Fin 64) (x : Shot) : (s.setShot w x).pool = s.pool := rfl
@[simp] theorem State.setShot_table (w : Fin 64) (x : Shot) : (s.setShot w x).table = s.table := rfl
@[simp] theorem State.setShot_taps (w : Fin 64) (x : Shot) : (s.setShot w x).taps = s.taps := rfl
@[simp] theorem State.setShot_view (w : Fin 64) (x : Shot) : (s.setShot w x).view = s.view := rfl
@[simp] theorem State.setShot_focus (w : Fin 64) (x : Shot) : (s.setShot w x).focus = s.focus := rfl
@[simp] theorem State.setShot_lens (w : Fin 64) (x : Shot) : (s.setShot w x).lens = s.lens := rfl
@[simp] theorem State.setShot_engine (w : Fin 64) (x : Shot) : (s.setShot w x).engine = s.engine := rfl
@[simp] theorem State.setShot_verify (w : Fin 64) (x : Shot) : (s.setShot w x).verify = s.verify := rfl
@[simp] theorem State.setShot_tether (w : Fin 64) (x : Shot) : (s.setShot w x).tether = s.tether := rfl
@[simp] theorem State.setShot_order (w : Fin 64) (x : Shot) : (s.setShot w x).order = s.order := rfl
@[simp] theorem State.setShot_notice (w : Fin 64) (x : Shot) : (s.setShot w x).notice = s.notice := rfl
@[simp] theorem State.setShot_plainFaults (w : Fin 64) (x : Shot) : (s.setShot w x).plainFaults = s.plainFaults := rfl
@[simp] theorem State.setShot_pending (w : Fin 64) (x : Shot) : (s.setShot w x).pending = s.pending := rfl

/-! ### `State.modShot` -/

@[simp] theorem State.modShot_phase (w : Fin 64) (f : Shot → Shot) : (s.modShot w f).phase = s.phase := rfl
@[simp] theorem State.modShot_caSel (w : Fin 64) (f : Shot → Shot) : (s.modShot w f).caSel = s.caSel := rfl
@[simp] theorem State.modShot_memSize (w : Fin 64) (f : Shot → Shot) : (s.modShot w f).memSize = s.memSize := rfl
@[simp] theorem State.modShot_lensPin (w : Fin 64) (f : Shot → Shot) : (s.modShot w f).lensPin = s.lensPin := rfl
@[simp] theorem State.modShot_now (w : Fin 64) (f : Shot → Shot) : (s.modShot w f).now = s.now := rfl
@[simp] theorem State.modShot_mem (w : Fin 64) (f : Shot → Shot) : (s.modShot w f).mem = s.mem := rfl
@[simp] theorem State.modShot_link (w : Fin 64) (f : Shot → Shot) : (s.modShot w f).link = s.link := rfl
@[simp] theorem State.modShot_port (w : Fin 64) (f : Shot → Shot) : (s.modShot w f).port = s.port := rfl
@[simp] theorem State.modShot_maps (w : Fin 64) (f : Shot → Shot) : (s.modShot w f).maps = s.maps := rfl
@[simp] theorem State.modShot_pool (w : Fin 64) (f : Shot → Shot) : (s.modShot w f).pool = s.pool := rfl
@[simp] theorem State.modShot_table (w : Fin 64) (f : Shot → Shot) : (s.modShot w f).table = s.table := rfl
@[simp] theorem State.modShot_taps (w : Fin 64) (f : Shot → Shot) : (s.modShot w f).taps = s.taps := rfl
@[simp] theorem State.modShot_view (w : Fin 64) (f : Shot → Shot) : (s.modShot w f).view = s.view := rfl
@[simp] theorem State.modShot_focus (w : Fin 64) (f : Shot → Shot) : (s.modShot w f).focus = s.focus := rfl
@[simp] theorem State.modShot_lens (w : Fin 64) (f : Shot → Shot) : (s.modShot w f).lens = s.lens := rfl
@[simp] theorem State.modShot_engine (w : Fin 64) (f : Shot → Shot) : (s.modShot w f).engine = s.engine := rfl
@[simp] theorem State.modShot_verify (w : Fin 64) (f : Shot → Shot) : (s.modShot w f).verify = s.verify := rfl
@[simp] theorem State.modShot_tether (w : Fin 64) (f : Shot → Shot) : (s.modShot w f).tether = s.tether := rfl
@[simp] theorem State.modShot_order (w : Fin 64) (f : Shot → Shot) : (s.modShot w f).order = s.order := rfl
@[simp] theorem State.modShot_notice (w : Fin 64) (f : Shot → Shot) : (s.modShot w f).notice = s.notice := rfl
@[simp] theorem State.modShot_plainFaults (w : Fin 64) (f : Shot → Shot) : (s.modShot w f).plainFaults = s.plainFaults := rfl
@[simp] theorem State.modShot_pending (w : Fin 64) (f : Shot → Shot) : (s.modShot w f).pending = s.pending := rfl

/-! ### `State.setEngine` -/

@[simp] theorem State.setEngine_phase (e : Engine) : (s.setEngine e).phase = s.phase := rfl
@[simp] theorem State.setEngine_caSel (e : Engine) : (s.setEngine e).caSel = s.caSel := rfl
@[simp] theorem State.setEngine_memSize (e : Engine) : (s.setEngine e).memSize = s.memSize := rfl
@[simp] theorem State.setEngine_lensPin (e : Engine) : (s.setEngine e).lensPin = s.lensPin := rfl
@[simp] theorem State.setEngine_now (e : Engine) : (s.setEngine e).now = s.now := rfl
@[simp] theorem State.setEngine_mem (e : Engine) : (s.setEngine e).mem = s.mem := rfl
@[simp] theorem State.setEngine_link (e : Engine) : (s.setEngine e).link = s.link := rfl
@[simp] theorem State.setEngine_port (e : Engine) : (s.setEngine e).port = s.port := rfl
@[simp] theorem State.setEngine_maps (e : Engine) : (s.setEngine e).maps = s.maps := rfl
@[simp] theorem State.setEngine_pool (e : Engine) : (s.setEngine e).pool = s.pool := rfl
@[simp] theorem State.setEngine_shots (e : Engine) : (s.setEngine e).shots = s.shots := rfl
@[simp] theorem State.setEngine_table (e : Engine) : (s.setEngine e).table = s.table := rfl
@[simp] theorem State.setEngine_taps (e : Engine) : (s.setEngine e).taps = s.taps := rfl
@[simp] theorem State.setEngine_view (e : Engine) : (s.setEngine e).view = s.view := rfl
@[simp] theorem State.setEngine_focus (e : Engine) : (s.setEngine e).focus = s.focus := rfl
@[simp] theorem State.setEngine_lens (e : Engine) : (s.setEngine e).lens = s.lens := rfl
@[simp] theorem State.setEngine_verify (e : Engine) : (s.setEngine e).verify = s.verify := rfl
@[simp] theorem State.setEngine_tether (e : Engine) : (s.setEngine e).tether = s.tether := rfl
@[simp] theorem State.setEngine_order (e : Engine) : (s.setEngine e).order = s.order := rfl
@[simp] theorem State.setEngine_notice (e : Engine) : (s.setEngine e).notice = s.notice := rfl
@[simp] theorem State.setEngine_plainFaults (e : Engine) : (s.setEngine e).plainFaults = s.plainFaults := rfl
@[simp] theorem State.setEngine_pending (e : Engine) : (s.setEngine e).pending = s.pending := rfl

/-! ### `State.setTetherQueue` -/

@[simp] theorem State.setTetherQueue_phase (q : List TetherEntry) : (s.setTetherQueue q).phase = s.phase := rfl
@[simp] theorem State.setTetherQueue_caSel (q : List TetherEntry) : (s.setTetherQueue q).caSel = s.caSel := rfl
@[simp] theorem State.setTetherQueue_memSize (q : List TetherEntry) : (s.setTetherQueue q).memSize = s.memSize := rfl
@[simp] theorem State.setTetherQueue_lensPin (q : List TetherEntry) : (s.setTetherQueue q).lensPin = s.lensPin := rfl
@[simp] theorem State.setTetherQueue_now (q : List TetherEntry) : (s.setTetherQueue q).now = s.now := rfl
@[simp] theorem State.setTetherQueue_mem (q : List TetherEntry) : (s.setTetherQueue q).mem = s.mem := rfl
@[simp] theorem State.setTetherQueue_link (q : List TetherEntry) : (s.setTetherQueue q).link = s.link := rfl
@[simp] theorem State.setTetherQueue_port (q : List TetherEntry) : (s.setTetherQueue q).port = s.port := rfl
@[simp] theorem State.setTetherQueue_maps (q : List TetherEntry) : (s.setTetherQueue q).maps = s.maps := rfl
@[simp] theorem State.setTetherQueue_pool (q : List TetherEntry) : (s.setTetherQueue q).pool = s.pool := rfl
@[simp] theorem State.setTetherQueue_shots (q : List TetherEntry) : (s.setTetherQueue q).shots = s.shots := rfl
@[simp] theorem State.setTetherQueue_table (q : List TetherEntry) : (s.setTetherQueue q).table = s.table := rfl
@[simp] theorem State.setTetherQueue_taps (q : List TetherEntry) : (s.setTetherQueue q).taps = s.taps := rfl
@[simp] theorem State.setTetherQueue_view (q : List TetherEntry) : (s.setTetherQueue q).view = s.view := rfl
@[simp] theorem State.setTetherQueue_focus (q : List TetherEntry) : (s.setTetherQueue q).focus = s.focus := rfl
@[simp] theorem State.setTetherQueue_lens (q : List TetherEntry) : (s.setTetherQueue q).lens = s.lens := rfl
@[simp] theorem State.setTetherQueue_engine (q : List TetherEntry) : (s.setTetherQueue q).engine = s.engine := rfl
@[simp] theorem State.setTetherQueue_verify (q : List TetherEntry) : (s.setTetherQueue q).verify = s.verify := rfl
@[simp] theorem State.setTetherQueue_order (q : List TetherEntry) : (s.setTetherQueue q).order = s.order := rfl
@[simp] theorem State.setTetherQueue_notice (q : List TetherEntry) : (s.setTetherQueue q).notice = s.notice := rfl
@[simp] theorem State.setTetherQueue_plainFaults (q : List TetherEntry) : (s.setTetherQueue q).plainFaults = s.plainFaults := rfl
@[simp] theorem State.setTetherQueue_pending (q : List TetherEntry) : (s.setTetherQueue q).pending = s.pending := rfl

/-! ### `State.advanceTo` -/

@[simp] theorem State.advanceTo_phase (n : Nat) : (s.advanceTo n).phase = s.phase := rfl
@[simp] theorem State.advanceTo_caSel (n : Nat) : (s.advanceTo n).caSel = s.caSel := rfl
@[simp] theorem State.advanceTo_memSize (n : Nat) : (s.advanceTo n).memSize = s.memSize := rfl
@[simp] theorem State.advanceTo_lensPin (n : Nat) : (s.advanceTo n).lensPin = s.lensPin := rfl
@[simp] theorem State.advanceTo_mem (n : Nat) : (s.advanceTo n).mem = s.mem := rfl
@[simp] theorem State.advanceTo_link (n : Nat) : (s.advanceTo n).link = s.link := rfl
@[simp] theorem State.advanceTo_port (n : Nat) : (s.advanceTo n).port = s.port := rfl
@[simp] theorem State.advanceTo_maps (n : Nat) : (s.advanceTo n).maps = s.maps := rfl
@[simp] theorem State.advanceTo_pool (n : Nat) : (s.advanceTo n).pool = s.pool := rfl
@[simp] theorem State.advanceTo_shots (n : Nat) : (s.advanceTo n).shots = s.shots := rfl
@[simp] theorem State.advanceTo_table (n : Nat) : (s.advanceTo n).table = s.table := rfl
@[simp] theorem State.advanceTo_taps (n : Nat) : (s.advanceTo n).taps = s.taps := rfl
@[simp] theorem State.advanceTo_view (n : Nat) : (s.advanceTo n).view = s.view := rfl
@[simp] theorem State.advanceTo_focus (n : Nat) : (s.advanceTo n).focus = s.focus := rfl
@[simp] theorem State.advanceTo_lens (n : Nat) : (s.advanceTo n).lens = s.lens := rfl
@[simp] theorem State.advanceTo_engine (n : Nat) : (s.advanceTo n).engine = s.engine := rfl
@[simp] theorem State.advanceTo_verify (n : Nat) : (s.advanceTo n).verify = s.verify := rfl
@[simp] theorem State.advanceTo_tether (n : Nat) : (s.advanceTo n).tether = s.tether := rfl
@[simp] theorem State.advanceTo_order (n : Nat) : (s.advanceTo n).order = s.order := rfl
@[simp] theorem State.advanceTo_notice (n : Nat) : (s.advanceTo n).notice = s.notice := rfl
@[simp] theorem State.advanceTo_plainFaults (n : Nat) : (s.advanceTo n).plainFaults = s.plainFaults := rfl
@[simp] theorem State.advanceTo_pending (n : Nat) : (s.advanceTo n).pending = s.pending := rfl

/-! ### `State.mapContexts` -/

@[simp] theorem State.mapContexts_phase (f : Option TapContext → Option TapContext) : (s.mapContexts f).phase = s.phase := rfl
@[simp] theorem State.mapContexts_caSel (f : Option TapContext → Option TapContext) : (s.mapContexts f).caSel = s.caSel := rfl
@[simp] theorem State.mapContexts_memSize (f : Option TapContext → Option TapContext) : (s.mapContexts f).memSize = s.memSize := rfl
@[simp] theorem State.mapContexts_lensPin (f : Option TapContext → Option TapContext) : (s.mapContexts f).lensPin = s.lensPin := rfl
@[simp] theorem State.mapContexts_now (f : Option TapContext → Option TapContext) : (s.mapContexts f).now = s.now := rfl
@[simp] theorem State.mapContexts_mem (f : Option TapContext → Option TapContext) : (s.mapContexts f).mem = s.mem := rfl
@[simp] theorem State.mapContexts_link (f : Option TapContext → Option TapContext) : (s.mapContexts f).link = s.link := rfl
@[simp] theorem State.mapContexts_port (f : Option TapContext → Option TapContext) : (s.mapContexts f).port = s.port := rfl
@[simp] theorem State.mapContexts_maps (f : Option TapContext → Option TapContext) : (s.mapContexts f).maps = s.maps := rfl
@[simp] theorem State.mapContexts_pool (f : Option TapContext → Option TapContext) : (s.mapContexts f).pool = s.pool := rfl
@[simp] theorem State.mapContexts_shots (f : Option TapContext → Option TapContext) : (s.mapContexts f).shots = s.shots := rfl
@[simp] theorem State.mapContexts_table (f : Option TapContext → Option TapContext) : (s.mapContexts f).table = s.table := rfl
@[simp] theorem State.mapContexts_view (f : Option TapContext → Option TapContext) : (s.mapContexts f).view = s.view := rfl
@[simp] theorem State.mapContexts_focus (f : Option TapContext → Option TapContext) : (s.mapContexts f).focus = s.focus := rfl
@[simp] theorem State.mapContexts_lens (f : Option TapContext → Option TapContext) : (s.mapContexts f).lens = s.lens := rfl
@[simp] theorem State.mapContexts_engine (f : Option TapContext → Option TapContext) : (s.mapContexts f).engine = s.engine := rfl
@[simp] theorem State.mapContexts_verify (f : Option TapContext → Option TapContext) : (s.mapContexts f).verify = s.verify := rfl
@[simp] theorem State.mapContexts_tether (f : Option TapContext → Option TapContext) : (s.mapContexts f).tether = s.tether := rfl
@[simp] theorem State.mapContexts_order (f : Option TapContext → Option TapContext) : (s.mapContexts f).order = s.order := rfl
@[simp] theorem State.mapContexts_notice (f : Option TapContext → Option TapContext) : (s.mapContexts f).notice = s.notice := rfl
@[simp] theorem State.mapContexts_plainFaults (f : Option TapContext → Option TapContext) : (s.mapContexts f).plainFaults = s.plainFaults := rfl
@[simp] theorem State.mapContexts_pending (f : Option TapContext → Option TapContext) : (s.mapContexts f).pending = s.pending := rfl

/-! ### `setPhase` -/

@[simp] theorem setPhase_phase (p : OrderPhase) : (setPhase s p).phase = s.phase := rfl
@[simp] theorem setPhase_caSel (p : OrderPhase) : (setPhase s p).caSel = s.caSel := rfl
@[simp] theorem setPhase_memSize (p : OrderPhase) : (setPhase s p).memSize = s.memSize := rfl
@[simp] theorem setPhase_lensPin (p : OrderPhase) : (setPhase s p).lensPin = s.lensPin := rfl
@[simp] theorem setPhase_now (p : OrderPhase) : (setPhase s p).now = s.now := rfl
@[simp] theorem setPhase_mem (p : OrderPhase) : (setPhase s p).mem = s.mem := rfl
@[simp] theorem setPhase_link (p : OrderPhase) : (setPhase s p).link = s.link := rfl
@[simp] theorem setPhase_port (p : OrderPhase) : (setPhase s p).port = s.port := rfl
@[simp] theorem setPhase_maps (p : OrderPhase) : (setPhase s p).maps = s.maps := rfl
@[simp] theorem setPhase_pool (p : OrderPhase) : (setPhase s p).pool = s.pool := rfl
@[simp] theorem setPhase_shots (p : OrderPhase) : (setPhase s p).shots = s.shots := rfl
@[simp] theorem setPhase_table (p : OrderPhase) : (setPhase s p).table = s.table := rfl
@[simp] theorem setPhase_taps (p : OrderPhase) : (setPhase s p).taps = s.taps := rfl
@[simp] theorem setPhase_view (p : OrderPhase) : (setPhase s p).view = s.view := rfl
@[simp] theorem setPhase_focus (p : OrderPhase) : (setPhase s p).focus = s.focus := rfl
@[simp] theorem setPhase_lens (p : OrderPhase) : (setPhase s p).lens = s.lens := rfl
@[simp] theorem setPhase_engine (p : OrderPhase) : (setPhase s p).engine = s.engine := rfl
@[simp] theorem setPhase_verify (p : OrderPhase) : (setPhase s p).verify = s.verify := rfl
@[simp] theorem setPhase_tether (p : OrderPhase) : (setPhase s p).tether = s.tether := rfl
@[simp] theorem setPhase_notice (p : OrderPhase) : (setPhase s p).notice = s.notice := rfl
@[simp] theorem setPhase_plainFaults (p : OrderPhase) : (setPhase s p).plainFaults = s.plainFaults := rfl
@[simp] theorem setPhase_pending (p : OrderPhase) : (setPhase s p).pending = s.pending := rfl

/-! ### What they change -/

@[simp] theorem State.setShot_shots (w : Fin 64) (x : Shot) : (s.setShot w x).shots = s.shots.set w.val x := rfl
@[simp] theorem State.modShot_shots (w : Fin 64) (f : Shot → Shot) :
    (s.modShot w f).shots = s.shots.set w.val (f (s.shot w)) := rfl
@[simp] theorem State.setEngine_engine (e : Engine) : (s.setEngine e).engine = e := rfl
@[simp] theorem State.setTetherQueue_queue (q : List TetherEntry) : (s.setTetherQueue q).tether.queue = q := rfl
@[simp] theorem State.setTetherQueue_rules (q : List TetherEntry) : (s.setTetherQueue q).tether.rules = s.tether.rules := rfl
@[simp] theorem State.setTetherQueue_head (q : List TetherEntry) : (s.setTetherQueue q).tether.head = s.tether.head := rfl
@[simp] theorem State.advanceTo_now (n : Nat) : (s.advanceTo n).now = max s.now n := rfl
@[simp] theorem setPhase_order_phase (p : OrderPhase) : (setPhase s p).order.phase = p := rfl

/-- The record that was set. -/
@[simp] theorem State.shot_setShot_same (w : Fin 64) (x : Shot) : (s.setShot w x).shot w = x := by
  simp [State.shot, State.setShot, Vector.get_eq_getElem]

/-- Every other record is as it was. -/
theorem State.shot_setShot_other (w v : Fin 64) (x : Shot) (h : v ≠ w) : (s.setShot w x).shot v = s.shot v := by
  have : w.val ≠ v.val := fun e => h (Fin.ext e.symm)
  simp [State.shot, State.setShot, Vector.get_eq_getElem, this]

/-- The record that was changed. -/
@[simp] theorem State.shot_modShot_same (w : Fin 64) (f : Shot → Shot) : (s.modShot w f).shot w = f (s.shot w) := by
  simp [State.modShot]

/-- Every other record is as it was. -/
theorem State.shot_modShot_other (w v : Fin 64) (f : Shot → Shot) (h : v ≠ w) : (s.modShot w f).shot v = s.shot v := by
  simp [State.modShot, State.shot_setShot_other, h]

end Sys2Proof.Machine
end

