-- ==== Sys2Proof/Laws/Reports.lean ====
section
/-! SUPPORT. What publishing can do: the two frames compose, the part's own work keeps within them, and each of the shared
reporting operations has one lemma that says all it can do. -/

namespace Sys2Proof.Machine

set_option Elab.async false

/-! ### The wider frame -/

theorem OnlyOwnWork.refl (s : State) : OnlyOwnWork s s := ⟨rfl, rfl, rfl, rfl⟩

theorem OnlyOwnWork.trans {s t u : State} (h : OnlyOwnWork s t) (k : OnlyOwnWork t u) : OnlyOwnWork s u := by
  obtain ⟨h1, h2, h3, h4⟩ := h
  obtain ⟨k1, k2, k3, k4⟩ := k
  refine ⟨?_, ?_, ?_, k4.trans h4⟩
  · rw [← k1] at h1; exact h1
  · rw [← k2] at h2; exact h2
  · rw [← k3] at h3; exact h3

/-- One entry of the part's own writes. -/
theorem enterWrite_ownWork (s : State) (w : Nat × List Byte × BitVec 64) : OnlyOwnWork s (enterWrite s w) :=
  ⟨rfl, rfl, rfl, rfl⟩

theorem evaluateAttention_ownWork (s : State) : OnlyOwnWork s (evaluateAttention s) := by
  simp only [evaluateAttention]
  split
  · exact ⟨rfl, rfl, rfl, rfl⟩
  · split <;> exact ⟨rfl, rfl, rfl, rfl⟩

theorem writeNotice_ownWork (s : State) (n : Notice) : OnlyOwnWork s (writeNotice s n) := ⟨rfl, rfl, rfl, rfl⟩

theorem writeOverflow_ownWork (s : State) : OnlyOwnWork s (writeOverflow s) := ⟨rfl, rfl, rfl, rfl⟩

theorem dropNotice_ownWork (s : State) (n : Notice) : OnlyOwnWork s (dropNotice s n) := ⟨rfl, rfl, rfl, rfl⟩

theorem issueRead_ownWork (s : State) (p : ReadPurpose) (a : Nat) : OnlyOwnWork s (issueRead s p a) := by
  unfold issueRead
  split <;> exact ⟨rfl, rfl, rfl, rfl⟩

theorem takeOrder_ownWork (s : State) : OnlyOwnWork s (takeOrder s) := by
  unfold takeOrder
  split
  · refine OnlyOwnWork.trans ?_ (issueRead_ownWork _ _ _)
    exact ⟨rfl, rfl, rfl, rfl⟩
  · exact .refl s

theorem completeOrder_ownWork (s : State) (st : OrderStatus) : OnlyOwnWork s (completeOrder s st) := by
  unfold completeOrder
  split <;> exact ⟨rfl, rfl, rfl, rfl⟩

/-- Everything that the Notice Unit's taking of a notice can do: it is dropped, it is written, or NOTICE OVERFLOW is, with the notice
directly behind it. -/
theorem takeNotice_cases (s t : State) (n : Notice) (h : takeNotice n s = some t) :
    (Config.noticePlaces ≤ unconsumedCount s ∧ t = dropNotice s n) ∨
    (unconsumedCount s < Config.noticePlaces ∧ writeRoom s = true ∧
      (t = writeNotice s n ∨
        reportWaits s = true ∧
          t = writeOverflow { s with port := { s.port with work := .notice n .handed :: s.port.work.erase .overflow } })) := by
  unfold takeNotice at h
  split at h
  · next hc => cases h; exact .inl ⟨hc, rfl⟩
  · next hc =>
    split at h
    · cases h
    · next hw =>
      have hw' : writeRoom s = true := by simpa using hw
      split at h
      · next hr =>
        cases h
        exact .inr ⟨Nat.not_le.mp hc, hw', .inr ⟨(Bool.and_eq_true _ _ ▸ hr).1, rfl⟩⟩
      · cases h; exact .inr ⟨Nat.not_le.mp hc, hw', .inl rfl⟩

theorem runWork_ownWork (w : OwnWork) (s t : State) (h : runWork w s = some t) : OnlyOwnWork s t := by
  cases w with
  | line l =>
    simp only [runWork] at h
    split at h
    · cases h; exact enterWrite_ownWork _ _
    · cases h
  | notice n _ =>
    obtain ⟨-, rfl⟩ | ⟨-, -, rfl | ⟨-, rfl⟩⟩ := takeNotice_cases s t n h
    · exact dropNotice_ownWork _ _
    · exact writeNotice_ownWork _ _
    · exact ⟨rfl, rfl, rfl, rfl⟩
  | overflow =>
    simp only [runWork] at h
    split at h
    · cases h; exact writeOverflow_ownWork _
    · cases h
  | attention =>
    simp only [runWork] at h
    cases h
    exact evaluateAttention_ownWork _
  | orderStatus st _ =>
    simp only [runWork] at h
    split at h
    · cases h; exact completeOrder_ownWork _ _
    · cases h
  | nextOrder =>
    simp only [runWork] at h
    cases h
    refine OnlyOwnWork.trans ?_ (takeOrder_ownWork _)
    exact ⟨rfl, rfl, rfl, rfl⟩

/-- Everything that doing the part's own work can change. -/
theorem settle_ownWork (n : Nat) (s : State) : OnlyOwnWork s (settle n s) := by
  induction n generalizing s with
  | zero => exact .refl s
  | succ n ih =>
    simp only [settle]
    split
    · exact .refl s
    · split
      · exact .refl s
      · next h =>
        refine OnlyOwnWork.trans (OnlyOwnWork.trans ?_ (runWork_ownWork _ _ _ h)) (ih _)
        exact ⟨rfl, rfl, rfl, rfl⟩

/-- Everything that a piece of work's coming up can do: it takes its place, or it is a notice that the ring has no room for. -/
theorem comeUp_cases (s : State) (w : OwnWork) : ∃ ws,
    comeUp s w = { s with port := { s.port with work := ws } } ∨
    ∃ n b, w = .notice n b ∧ comeUp s w = { countDrop s n with port := { s.port with work := ws } } := by
  cases w with
  | notice n b =>
    simp only [comeUp]
    split
    · exact ⟨_, .inr ⟨n, b, rfl, rfl⟩⟩
    · exact ⟨_, .inl rfl⟩
  | line l => exact ⟨_, .inl rfl⟩
  | overflow => exact ⟨_, .inl rfl⟩
  | attention => exact ⟨_, .inl rfl⟩
  | orderStatus st b => exact ⟨_, .inl rfl⟩
  | nextOrder => exact ⟨_, .inl rfl⟩

theorem comeUp_ownWork (s : State) (w : OwnWork) : OnlyOwnWork s (comeUp s w) := by
  obtain ⟨ws, e | ⟨n, b, -, e⟩⟩ := comeUp_cases s w <;> rw [e] <;> exact ⟨rfl, rfl, rfl, rfl⟩

theorem bringUp_ownWork (n : Nat) (s : State) : OnlyOwnWork s (bringUp n s) := by
  induction n generalizing s with
  | zero => exact .refl s
  | succ n ih =>
    simp only [bringUp]
    split
    · exact .refl s
    · refine OnlyOwnWork.trans (OnlyOwnWork.trans ?_ (comeUp_ownWork _ _)) (ih _)
      exact ⟨rfl, rfl, rfl, rfl⟩

theorem settleFree_ownWork (n : Nat) (s : State) : OnlyOwnWork s (settleFree n s) := by
  induction n generalizing s with
  | zero => exact .refl s
  | succ n ih =>
    simp only [settleFree]
    split
    · exact .refl s
    · split
      · exact (settle_ownWork 1 s).trans (ih _)
      · exact .refl s

theorem goOn_ownWork (s : State) : OnlyOwnWork s (goOn s) := (bringUp_ownWork _ s).trans (settleFree_ownWork _ _)

theorem joinWork_ownWork (s : State) (w : OwnWork) : OnlyOwnWork s (joinWork s w) := by
  unfold joinWork
  split
  · exact ⟨rfl, rfl, rfl, rfl⟩
  · exact comeUp_ownWork s w

theorem emit_ownWork (s : State) (w : OwnWork) : OnlyOwnWork s (emit s w) := by
  unfold emit
  split
  · refine OnlyOwnWork.trans (OnlyOwnWork.trans ?_ (settle_ownWork _ _)) (goOn_ownWork _)
    exact ⟨rfl, rfl, rfl, rfl⟩
  · exact joinWork_ownWork s w

theorem emitLine_ownWork (s : State) (l : OwnLine) : OnlyOwnWork s (emitLine s l) := by
  unfold emitLine
  split
  · exact .refl s
  · exact emit_ownWork _ _

theorem hand_ownWork (s : State) (n : Notice) : OnlyOwnWork s (hand s n) := emit_ownWork _ _

theorem publish_ownWork (s : State) (n : Fin 9) : OnlyOwnWork s (publish s n) := emitLine_ownWork _ _

theorem mirror_ownWork (s : State) (w : Fin 64) (ls : List (Fin 64)) : OnlyOwnWork s (mirror s w ls) := by
  unfold mirror
  induction ls generalizing s with
  | nil => exact .refl s
  | cons l ls ih => exact (emitLine_ownWork _ _).trans (ih _)

theorem finishOrder_ownWork (s : State) (o : OrderRecord) (st : OrderStatus) : OnlyOwnWork s (finishOrder s o st) :=
  OnlyOwnWork.trans (t := { s with order := { s.order with phase := .completing o } }) ⟨rfl, rfl, rfl, rfl⟩
    (emit_ownWork _ _)

/-- Notices that have waited all along are not the order's own. -/
theorem oweNotices_all (ws : List OwnWork) : oweNotices (ws.countP OwnWork.isHeldNotice) ws = ws := by
  induction ws with
  | nil => rfl
  | cons w ws ih =>
    cases w with
    | notice n st => cases st <;> simp [oweNotices, OwnWork.isHeldNotice, ih]
    | _ => simpa [oweNotices, OwnWork.isHeldNotice] using ih

/-- A rule that has handed over no notice owes none. -/
@[simp] theorem owingSince_work {s t : State} (h : t.port.work = s.port.work) : t.owingSince s = t := by
  unfold State.owingSince
  rw [h, oweNotices_all, ← h]

/-- What an order's rule has left owing is part of the part's own work. -/
theorem owingSince_ownWork (s t : State) : OnlyOwnWork t (t.owingSince s) := ⟨rfl, rfl, rfl, rfl⟩

/-! ### The narrow frame -/

theorem OutsideLine.congr {s t : State} (h : t.caSel = s.caSel) {l : OwnLine} {a : Nat} (k : OutsideLine s l a) :
    OutsideLine t l a := by
  have e : (ownLineWrite t l).1 = (ownLineWrite s l).1 ∧ (ownLineWrite t l).2.2 = (ownLineWrite s l).2.2 := by
    cases l <;> simp [ownLineWrite, h]
  intro i hi hm
  rw [e.1]
  rw [e.2] at hm
  exact k i hi hm

theorem slotAfter_add (k i j : Nat) : slotAfter (slotAfter k i) j = slotAfter k (i + j) := by
  induction j with
  | zero => rfl
  | succ j ih => simp only [slotAfter, ih, Nat.add_eq, Nat.add_succ]

theorem numberAfter_add (k i j : Nat) : numberAfter (numberAfter k i) j = numberAfter k (i + j) := by
  induction j with
  | zero => rfl
  | succ j ih => simp only [numberAfter, ih, Nat.add_eq, Nat.add_succ]

theorem overflowAfter_add (k i j : Nat) : overflowAfter (overflowAfter k i) j = overflowAfter k (i + j) := by
  induction j with
  | zero => rfl
  | succ j ih => simp only [overflowAfter, ih, Nat.add_eq, Nat.add_succ]

theorem RingAfter.refl (u : NoticeUnit) : RingAfter 0 0 u u :=
  ⟨rfl, rfl, rfl, ⟨[], rfl, (List.append_nil _).symm⟩, fun _ => ⟨rfl, rfl, rfl⟩⟩

theorem RingAfter.trans {j d j' d' : Nat} {u v w : NoticeUnit} (h : RingAfter j d u v) (k : RingAfter j' d' v w) :
    RingAfter (j + j') (d + d') u w := by
  obtain ⟨h1, h2, h3, ⟨m, hm, h4⟩, h5⟩ := h
  obtain ⟨k1, k2, k3, ⟨m', hm', k4⟩, k5⟩ := k
  refine ⟨?_, ?_, ?_, ⟨m ++ m', by simp [hm, hm'], by rw [k4, h4, List.append_assoc]⟩, fun e => ?_⟩
  · rw [k1, h1, slotAfter_add]
  · rw [k2, h2, numberAfter_add]
  · rw [k3, h3, overflowAfter_add]
  · have hj : j = 0 := by omega
    have hk : j' = 0 := by omega
    obtain ⟨a, b, c⟩ := h5 hj
    obtain ⟨a', b', c'⟩ := k5 hk
    exact ⟨a'.trans a, b'.trans b, c'.trans c⟩

theorem OnlyReports.refl (s : State) : OnlyReports [] 0 s s :=
  ⟨rfl, rfl, rfl, fun _ => rfl, ⟨0, 0, Nat.le_refl 0, .refl _⟩, fun _ _ _ => rfl⟩

theorem OnlyReports.caSel {ls : List OwnLine} {n : Nat} {s t : State} (h : OnlyReports ls n s t) : t.caSel = s.caSel := by
  have e := congrArg State.caSel h.blocks
  exact e

/-- The frame of two publications one after the other. -/
theorem OnlyReports.trans {ls ls' : List OwnLine} {n n' : Nat} {s t u : State} (h : OnlyReports ls n s t)
    (k : OnlyReports ls' n' t u) : OnlyReports (ls ++ ls') (n + n') s u := by
  have hca := h.caSel
  obtain ⟨h1, h2, h3, hq, ⟨i, d, hi, h4⟩, h5⟩ := h
  obtain ⟨k1, k2, k3, kq, ⟨j, e, hj, k4⟩, k5⟩ := k
  refine ⟨?_, ?_, ?_, fun hn => (kq (by omega)).trans (hq (by omega)), ⟨i + j, d + e, by omega, h4.trans k4⟩, ?_⟩
  · rw [← k1] at h1; exact h1
  · rw [← k2] at h2; exact h2
  · rw [← k3] at h3; exact h3
  · intro a hl hn
    rw [k5 a, h5 a]
    · exact fun l hm => hl l (List.mem_append_left _ hm)
    · exact fun m hm => hn m (by omega)
    · exact fun l hm => (hl l (List.mem_append_right _ hm)).congr hca
    · intro m hm
      have := hn (i + m) (by omega)
      simpa [slotAddr, hca, h4.writeIndex, slotAfter_add] using this

/-- A wider list of lines and more notices, where the Notice Unit has none or some to begin with. -/
theorem OnlyReports.mono {ls ls' : List OwnLine} {n n' : Nat} {s t : State} (h : OnlyReports ls n s t)
    (hl : ∀ l ∈ ls, l ∈ ls') (hn : n ≤ n') : OnlyReports ls' n' s t := by
  obtain ⟨h1, h2, h3, hq, ⟨i, d, hi, h4⟩, h5⟩ := h
  exact ⟨h1, h2, h3, fun e => hq (by omega), ⟨i, d, by omega, h4⟩,
    fun a ha hs => h5 a (fun l hm => ha l (hl l hm)) fun j hj => hs j (by omega)⟩

/-- What waits to be done is no part of the frame. -/
theorem OnlyReports.ofWork {ls : List OwnLine} {n : Nat} {s t : State} (w : List OwnWork)
    (h : OnlyReports ls n { s with port := { s.port with work := w } } t) : OnlyReports ls n s t := by
  obtain ⟨h1, h2, h3, h4, h5, h6⟩ := h
  refine ⟨?_, ?_, h3, h4, h5, h6⟩
  · have := congrArg (fun x : State => { x with port := s.port }) h1
    exact this
  · have := congrArg (fun x : MemoryPort => { x with work := s.port.work }) h2
    exact this

/-- Nor is which of the waiting notices an order owes. -/
theorem OnlyReports.owing {ls : List OwnLine} {n : Nat} {s t u : State} (h : OnlyReports ls n s t) :
    OnlyReports ls n s (t.owingSince u) := ⟨h.blocks, h.port, h.notice, h.quiet, h.count, h.mem⟩

theorem enterLine_reports (s : State) (l : OwnLine) : OnlyReports [l] 0 s (enterWrite s (ownLineWrite s l)) := by
  refine ⟨rfl, rfl, rfl, fun _ => rfl, ⟨0, 0, Nat.le_refl 0, .refl _⟩, fun a hl _ => ?_⟩
  apply Memory.read_writeLine_other
  intro i hi hm ha
  exact hl l (by simp) i hi hm ha

/-- The mask of a run of bytes selects those bytes alone. -/
theorem rangeMask_getLsbD (f t i : Nat) (h : t ≤ 64) : (rangeMask f t).getLsbD i = (decide (f ≤ i) && decide (i < t)) := by
  rcases Nat.lt_or_ge f t with hft | hft
  · have e : (2 ^ (t - f) - 1) * 2 ^ f = (2 ^ (t - f) - 1) <<< f := by rw [Nat.shiftLeft_eq]
    by_cases hi : i < 64
    · simp only [rangeMask, BitVec.getLsbD_ofNat, hi, decide_true, Bool.true_and, e, Nat.testBit_shiftLeft,
        Nat.testBit_two_pow_sub_one, ge_iff_le]
      by_cases h1 : f ≤ i
      · simp only [h1, decide_true, Bool.true_and, decide_eq_decide]; omega
      · simp [h1]
    · have : ¬ i < t := by omega
      simp [rangeMask, BitVec.getLsbD_ofNat, hi, this]
  · have h0 : t - f = 0 := by omega
    have : ¬ (f ≤ i ∧ i < t) := by omega
    have h2 : (decide (f ≤ i) && decide (i < t)) = false := by simpa using this
    simp [rangeMask, h0, h2]

/-- R171: a notice's half-line covers exactly the 32 bytes of its slot. -/
theorem noticeWrite_other (s : State) (m : Memory) (k : Nat) (bytes : List Byte) (a : Nat)
    (h : Outside (slotAddr s k) 32 a) :
    (m.writeLine (noticeWrite s k bytes).1 (noticeWrite s k bytes).2.1 (noticeWrite s k bytes).2.2).read a = m.read a := by
  apply Memory.read_writeLine_other
  intro i hi hm ha
  simp only [Outside, slotAddr] at h
  unfold noticeWrite at hm ha
  split at hm
  · next hk =>
    simp only [hk, if_true] at ha hm
    rw [rangeMask_getLsbD _ _ _ (by omega)] at hm
    simp only [Bool.and_eq_true, decide_eq_true_eq] at hm
    omega
  · next hk =>
    simp only [hk, if_false] at ha hm
    rw [rangeMask_getLsbD _ _ _ (by omega)] at hm
    simp only [Bool.and_eq_true, decide_eq_true_eq] at hm
    omega

/-- With nothing waiting there is nothing to go on with. -/
theorem goOn_nil (s : State) (h : s.port.work = []) : goOn s = s := by simp [goOn, h, bringUp, settleFree]

/-- Nor is there behind a line that waits for a place. -/
theorem goOn_line (s : State) (l : OwnLine) (ws : List OwnWork) (h : s.port.work = .line l :: ws)
    (k : ws = [] ∨ ws = [.attention]) : goOn s = s := by
  rcases k with rfl | rfl <;>
    simp [goOn, h, bringUp, firstReady, OwnWork.waits, settleFree, needsNoPlace]

/-- Doing one line that is all there is to do. -/
theorem settle_line_reports (k : Nat) (s : State) (l : OwnLine) (h : s.port.work = [.line l]) :
    OnlyReports [l] 0 s (goOn (settle k s)) := by
  match k with
  | 0 =>
    show OnlyReports [l] 0 s (goOn s)
    rw [goOn_line s l [] h (.inl rfl)]
    exact (OnlyReports.refl s).mono (by simp) (Nat.le_refl 0)
  | k + 1 =>
    simp only [settle, h, runWork]
    split
    · rw [goOn_line s l [] h (.inl rfl)]
      exact (OnlyReports.refl s).mono (by simp) (Nat.le_refl 0)
    · next t ht =>
      split at ht
      · cases ht
        have hs : settle k (enterWrite { s with port := { s.port with work := [] } }
            (ownLineWrite { s with port := { s.port with work := [] } } l)) =
            enterWrite { s with port := { s.port with work := [] } }
            (ownLineWrite { s with port := { s.port with work := [] } } l) := by
          cases k <;> rfl
        rw [hs, goOn_nil _ rfl]
        exact OnlyReports.ofWork [] (enterLine_reports _ l)
      · cases ht

/-- Everything that writing back a line can do. -/
theorem emitLine_reports (s : State) (l : OwnLine) : OnlyReports [l] 0 s (emitLine s l) := by
  unfold emitLine
  split
  · exact (OnlyReports.refl s).mono (by simp) (Nat.le_refl 0)
  · unfold emit
    split
    · exact OnlyReports.ofWork [.line l] (settle_line_reports _ _ l rfl)
    · exact ⟨rfl, rfl, rfl, fun _ => rfl, ⟨0, 0, Nat.le_refl 0, .refl _⟩, fun _ _ _ => rfl⟩

theorem publish_reports (s : State) (n : Fin 9) : OnlyReports [.cursor n] 0 s (publish s n) := emitLine_reports _ _

theorem emitLines_reports {α : Type} (s : State) (f : α → OwnLine) (ls : List α) :
    OnlyReports (ls.map f) 0 s (ls.foldl (fun s l => emitLine s (f l)) s) := by
  induction ls generalizing s with
  | nil => exact .refl s
  | cons l ls ih => exact (emitLine_reports s (f l)).trans (ih _)

theorem mirror_reports (s : State) (w : Fin 64) (ls : List (Fin 64)) :
    OnlyReports (ls.map (.mirror w)) 0 s (mirror s w ls) := emitLines_reports s _ ls

theorem mirrorChanged_reports (s : State) (w : Fin 64) (old : Shot) :
    OnlyReports ((changedLines w old (s.shot w)).map (.mirror w)) 0 s (mirrorChanged s w old) := mirror_reports s w _

/-- Everything that evaluating the attention condition can do. -/
theorem evaluateAttention_cases (s : State) : ∃ c l p,
    evaluateAttention s = { s with notice := { s.notice with standing := c, line := l, pulse := p } } := by
  simp only [evaluateAttention]
  split
  · exact ⟨_, _, s.notice.pulse, rfl⟩
  · split
    · exact ⟨_, _, _, rfl⟩
    · exact ⟨_, s.notice.line, s.notice.pulse, rfl⟩

/-- A notice that has been written, before its cursor page line and the evaluation. -/
theorem writeNotice_reports (s : State) (n : Notice) :
    OnlyReports [] 1 (s.withMarks (writeNotice s n).notice.outstanding) (writeNotice s n) := by
  refine ⟨rfl, rfl, rfl, fun h => by omega, ⟨1, 0, Nat.le_refl 1, rfl, rfl, rfl, ⟨_, rfl, rfl⟩, fun h => by omega⟩,
    fun a _ hn => ?_⟩
  exact noticeWrite_other s s.mem _ _ a (hn 0 (by omega))

/-- A notice that has been dropped and counted, whatever work then waits. -/
theorem countDrop_reports (s : State) (n : Notice) (ws : List OwnWork) :
    OnlyReports [] 1 (s.withMarks (countDrop s n).notice.outstanding)
      { countDrop s n with port := { s.port with work := ws } } :=
  ⟨rfl, rfl, rfl, fun h => by omega, ⟨0, 1, Nat.le_refl 1, rfl, rfl, rfl, ⟨[], rfl, (List.append_nil _).symm⟩,
    fun _ => ⟨rfl, rfl, rfl⟩⟩, fun _ _ _ => rfl⟩

/-- After a written notice, the evaluation of the attention condition stays within the frame. -/
theorem OnlyReports.evaluate {ls : List OwnLine} {s t : State} (h : OnlyReports ls 1 s t)
    (hw : t.notice.writeIndex = slotAfter s.notice.writeIndex 1) (hn : t.notice.number = numberAfter s.notice.number 1)
    (ho : t.notice.overflow = s.notice.overflow)
    (hu : ∃ marks, marks.length = 1 ∧ t.notice.unconsumed = s.notice.unconsumed ++ marks) :
    OnlyReports ls 1 s (evaluateAttention t) := by
  obtain ⟨c, l, p, e⟩ := evaluateAttention_cases t
  obtain ⟨h1, h2, h3, _, _, h6⟩ := h
  rw [e]
  exact ⟨h1, h2, h3, fun h => by omega, ⟨1, 0, Nat.le_refl 1, hw, hn, ho, hu, fun h => by omega⟩, h6⟩

/-- What is left to do once a notice has been written: its cursor page line, and the evaluation. -/
theorem settle_noticeTail (k : Nat) (s : State) (l : OwnLine) (h : s.port.work = [.line l, .attention]) :
    ∃ t, OnlyReports [l] 0 s t ∧ (goOn (settle (k + 2) s) = t ∨ goOn (settle (k + 2) s) = evaluateAttention t) := by
  simp only [settle, h, runWork]
  split
  · exact ⟨s, (OnlyReports.refl s).mono (by simp) (Nat.le_refl 0), .inl (goOn_line s l _ h (.inr rfl))⟩
  · next u hu =>
    split at hu
    · cases hu
      generalize hg : enterWrite { s with port := { s.port with work := [.attention] } }
        (ownLineWrite { s with port := { s.port with work := [.attention] } } l) = g
      have hr : OnlyReports [l] 0 s g := by rw [← hg]; exact OnlyReports.ofWork [.attention] (enterLine_reports _ l)
      have hgw : g.port.work = [.attention] := by rw [← hg]; rfl
      refine ⟨{ g with port := { g.port with work := [] } }, ?_, .inr ?_⟩
      · obtain ⟨h1, h2, h3, h4, h5, h6⟩ := hr
        refine ⟨h1, ?_, h3, h4, h5, h6⟩
        have := congrArg (fun x : MemoryPort => { x with work := s.port.work }) h2
        exact this
      · simp only [hgw]
        obtain ⟨c, l', p, e⟩ := evaluateAttention_cases { g with port := { g.port with work := [] } }
        rw [e]
        cases k <;> exact goOn_nil _ rfl
    · cases hu

/-- What handing over a notice comes to: it waits, it is written, or it is dropped, at once or with nothing else waiting. -/
theorem hand_cases (s : State) (n : Notice) :
    let v : State := { s with port := { s.port with work := [] } }
    (∃ w, hand s n = { s with port := { s.port with work := w } }) ∨
    (s.port.work = [] ∧ hand s n = goOn (settle 7 (writeNotice v n))) ∨
    (s.port.work = [] ∧ hand s n = goOn (settle 7 (dropNotice v n))) ∨
    ∃ w, hand s n = { countDrop s n with port := { s.port with work := w } } := by
  unfold hand emit
  split
  · next h =>
    have h0 : s.port.work = [] := List.isEmpty_iff.mp h
    show (∃ w, goOn (settle (7 + 1) _) = _) ∨ (_ ∧ goOn (settle (7 + 1) _) = _) ∨ (_ ∧ goOn (settle (7 + 1) _) = _) ∨ _
    generalize (7 : Nat) = k
    simp only [settle, runWork]
    split
    · next hu =>
      have hc : ∀ w, ¬ Config.noticePlaces ≤ unconsumedCount { s with port := { s.port with work := w } } := by
        intro w hw
        have hw' : Config.noticePlaces ≤ unconsumedCount { s with port := { s.port with work := [] } } := hw
        simp [takeNotice, hw'] at hu
      refine .inl ⟨[.notice n .handed], ?_⟩
      simp [goOn, bringUp, firstReady, OwnWork.waits, comeUp, unitBusy, settleFree, needsNoPlace, hc]
    · next u hu =>
      obtain ⟨-, rfl⟩ | ⟨-, -, rfl | ⟨hr, -⟩⟩ := takeNotice_cases _ u n hu
      · exact .inr (.inr (.inl ⟨h0, rfl⟩))
      · exact .inr (.inl ⟨h0, rfl⟩)
      · simp [reportWaits] at hr
  · unfold joinWork
    split
    · exact .inl ⟨_, rfl⟩
    · obtain ⟨ws, e | ⟨m, b, hm, e⟩⟩ := comeUp_cases s (.notice n .waits)
      · exact .inl ⟨ws, e⟩
      · cases hm
        exact .inr (.inr (.inr ⟨ws, e⟩))

/-- Everything that handing over a notice can do, apart from the outstanding marks. -/
theorem hand_marked_reports (s : State) (n : Notice) :
    OnlyReports [.cursor 3] 1 (s.withMarks (hand s n).notice.outstanding) (hand s n) := by
  rcases hand_cases s n with ⟨w, e⟩ | ⟨h0, e⟩ | ⟨h0, e⟩ | ⟨w, e⟩
  · rw [e]
    exact ⟨rfl, rfl, rfl, fun h => by omega, ⟨0, 0, by omega, .refl _⟩, fun _ _ _ => rfl⟩
  · generalize hv : ({ s with port := { s.port with work := [] } } : State) = v at e
    have hb := writeNotice_reports v n
    obtain ⟨x, hx, ex⟩ := settle_noticeTail 5 (writeNotice v n) (.cursor 3) (by rw [← hv]; rfl)
    have hxn := hx.quiet rfl
    have hall := hb.trans hx
    rw [← e] at ex
    have ho : (hand s n).notice.outstanding = (writeNotice v n).notice.outstanding := by
      rcases ex with ex | ex
      · rw [ex, hxn]
      · obtain ⟨c, l, p, e'⟩ := evaluateAttention_cases x
        rw [ex, e', ← hxn]
    rw [ho]
    suffices h : OnlyReports [.cursor 3] 1 (v.withMarks (writeNotice v n).notice.outstanding) (hand s n) by
      rw [← hv] at h ⊢
      exact OnlyReports.ofWork [] h
    rcases ex with ex | ex
    · rw [ex]; exact hall
    · rw [ex]
      refine OnlyReports.evaluate hall ?_ ?_ ?_ ?_ <;> rw [hxn]
      · rfl
      · rfl
      · rfl
      · exact ⟨_, rfl, rfl⟩
  · generalize hv : ({ s with port := { s.port with work := [] } } : State) = v at e
    have hx := settle_line_reports 7 (dropNotice v n) (.cursor 3) (by rw [← hv]; rfl)
    have hall := (countDrop_reports v n (dropNotice v n).port.work).trans hx
    rw [e, hx.quiet rfl]
    rw [← hv] at hall ⊢
    exact OnlyReports.ofWork [] hall
  · rw [e]
    exact (countDrop_reports s n w).mono (by simp) (Nat.le_refl 1)

/-- A notice that is no PLAIN FAULT leaves the outstanding marks as they are. -/
theorem hand_marks (s : State) (n : Notice) (h : n.fault = none) :
    (hand s n).notice.outstanding = s.notice.outstanding := by
  rcases hand_cases s n with ⟨w, e⟩ | ⟨_, e⟩ | ⟨_, e⟩ | ⟨w, e⟩
  · rw [e]
  · obtain ⟨x, hx, ex⟩ := settle_noticeTail 5 (writeNotice { s with port := { s.port with work := [] } } n) (.cursor 3) rfl
    have hn : (writeNotice { s with port := { s.port with work := [] } } n).notice.outstanding = s.notice.outstanding := by
      simp [writeNotice, h, enterWrite]
    rw [← e] at ex
    rcases ex with ex | ex
    · rw [ex, hx.quiet rfl, hn]
    · obtain ⟨c, l, p, e'⟩ := evaluateAttention_cases x
      rw [ex, e']
      show x.notice.outstanding = _
      rw [hx.quiet rfl, hn]
  · rw [e, (settle_line_reports 7 (dropNotice { s with port := { s.port with work := [] } } n) (.cursor 3) rfl).quiet rfl]
    simp [dropNotice, countDrop, h]
  · rw [e]
    simp [countDrop, h]

/-- Everything that handing over a notice can do that is no PLAIN FAULT. -/
theorem hand_reports (s : State) (n : Notice) (h : n.fault = none) : OnlyReports [.cursor 3] 1 s (hand s n) := by
  have k := hand_marked_reports s n
  rw [hand_marks s n h] at k
  exact k

/-- Publishing is part of the part's own work. -/
theorem OnlyReports.ownWork {ls : List OwnLine} {n : Nat} {s t : State} (h : OnlyReports ls n s t) : OnlyOwnWork s t := by
  obtain ⟨h1, h2, h3, _, _, _⟩ := h
  have ho : t.order = s.order := by
    have e := congrArg State.order h1
    exact e
  refine ⟨?_, ?_, ?_, by rw [ho]⟩
  · rw [← ho]; exact h1
  · have hr : t.port.reads = s.port.reads := by
      have e := congrArg MemoryPort.reads h2
      exact e
    have hh : t.port.heldReads = s.port.heldReads := by
      have e := congrArg MemoryPort.heldReads h2
      exact e
    rw [← hr, ← hh]; exact h2
  · have := congrArg (fun x : NoticeUnit => { x with outstanding := s.notice.outstanding }) h3
    exact this

end Sys2Proof.Machine
end

