-- ==== Sys2Proof/Laws/Frames.lean ====
section
/-! SUPPORT. What the reporting operations leave as it was, field by field. Each is read off the operation's own frame. -/

namespace Sys2Proof.Machine

set_option Elab.async false

variable (s : State)

theorem OnlyOwnWork.field {α : Type} {s t : State} (h : OnlyOwnWork s t) (f : State → α)
    (hf : ∀ (u : State) (m : Memory) (p : MemoryPort) (n : NoticeUnit) (o : OrderUnit),
      f { u with mem := m, port := p, notice := n, order := o } = f u := by intros; rfl) : f t = f s := by
  rw [← hf t s.mem s.port s.notice s.order, h.blocks]

theorem OnlyReports.order {ls : List OwnLine} {n : Nat} {s t : State} (h : OnlyReports ls n s t) : t.order = s.order := by
  have e := congrArg State.order h.blocks
  exact e

/-! ### `emit` -/

@[simp] theorem emit_phase (w : OwnWork) : (emit s w).phase = s.phase :=
  (emit_ownWork s w).field State.phase
@[simp] theorem emit_caSel (w : OwnWork) : (emit s w).caSel = s.caSel :=
  (emit_ownWork s w).field State.caSel
@[simp] theorem emit_memSize (w : OwnWork) : (emit s w).memSize = s.memSize :=
  (emit_ownWork s w).field State.memSize
@[simp] theorem emit_lensPin (w : OwnWork) : (emit s w).lensPin = s.lensPin :=
  (emit_ownWork s w).field State.lensPin
@[simp] theorem emit_now (w : OwnWork) : (emit s w).now = s.now :=
  (emit_ownWork s w).field State.now
@[simp] theorem emit_link (w : OwnWork) : (emit s w).link = s.link :=
  (emit_ownWork s w).field State.link
@[simp] theorem emit_maps (w : OwnWork) : (emit s w).maps = s.maps :=
  (emit_ownWork s w).field State.maps
@[simp] theorem emit_pool (w : OwnWork) : (emit s w).pool = s.pool :=
  (emit_ownWork s w).field State.pool
@[simp] theorem emit_shots (w : OwnWork) : (emit s w).shots = s.shots :=
  (emit_ownWork s w).field State.shots
@[simp] theorem emit_table (w : OwnWork) : (emit s w).table = s.table :=
  (emit_ownWork s w).field State.table
@[simp] theorem emit_taps (w : OwnWork) : (emit s w).taps = s.taps :=
  (emit_ownWork s w).field State.taps
@[simp] theorem emit_view (w : OwnWork) : (emit s w).view = s.view :=
  (emit_ownWork s w).field State.view
@[simp] theorem emit_focus (w : OwnWork) : (emit s w).focus = s.focus :=
  (emit_ownWork s w).field State.focus
@[simp] theorem emit_lens (w : OwnWork) : (emit s w).lens = s.lens :=
  (emit_ownWork s w).field State.lens
@[simp] theorem emit_engine (w : OwnWork) : (emit s w).engine = s.engine :=
  (emit_ownWork s w).field State.engine
@[simp] theorem emit_verify (w : OwnWork) : (emit s w).verify = s.verify :=
  (emit_ownWork s w).field State.verify
@[simp] theorem emit_tether (w : OwnWork) : (emit s w).tether = s.tether :=
  (emit_ownWork s w).field State.tether
@[simp] theorem emit_plainFaults (w : OwnWork) : (emit s w).plainFaults = s.plainFaults :=
  (emit_ownWork s w).field State.plainFaults
@[simp] theorem emit_pending (w : OwnWork) : (emit s w).pending = s.pending :=
  (emit_ownWork s w).field State.pending
@[simp] theorem emit_shot (w : OwnWork) (v : Fin 64) : (emit s w).shot v = s.shot v := by simp [State.shot]
@[simp] theorem emit_mapsOf (w : OwnWork) (v : Fin 64) : (emit s w).mapsOf v = s.mapsOf v := by simp [State.mapsOf]

/-! ### `emitLine` -/

@[simp] theorem emitLine_phase (l : OwnLine) : (emitLine s l).phase = s.phase :=
  (emitLine_ownWork s l).field State.phase
@[simp] theorem emitLine_caSel (l : OwnLine) : (emitLine s l).caSel = s.caSel :=
  (emitLine_ownWork s l).field State.caSel
@[simp] theorem emitLine_memSize (l : OwnLine) : (emitLine s l).memSize = s.memSize :=
  (emitLine_ownWork s l).field State.memSize
@[simp] theorem emitLine_lensPin (l : OwnLine) : (emitLine s l).lensPin = s.lensPin :=
  (emitLine_ownWork s l).field State.lensPin
@[simp] theorem emitLine_now (l : OwnLine) : (emitLine s l).now = s.now :=
  (emitLine_ownWork s l).field State.now
@[simp] theorem emitLine_link (l : OwnLine) : (emitLine s l).link = s.link :=
  (emitLine_ownWork s l).field State.link
@[simp] theorem emitLine_maps (l : OwnLine) : (emitLine s l).maps = s.maps :=
  (emitLine_ownWork s l).field State.maps
@[simp] theorem emitLine_pool (l : OwnLine) : (emitLine s l).pool = s.pool :=
  (emitLine_ownWork s l).field State.pool
@[simp] theorem emitLine_shots (l : OwnLine) : (emitLine s l).shots = s.shots :=
  (emitLine_ownWork s l).field State.shots
@[simp] theorem emitLine_table (l : OwnLine) : (emitLine s l).table = s.table :=
  (emitLine_ownWork s l).field State.table
@[simp] theorem emitLine_taps (l : OwnLine) : (emitLine s l).taps = s.taps :=
  (emitLine_ownWork s l).field State.taps
@[simp] theorem emitLine_view (l : OwnLine) : (emitLine s l).view = s.view :=
  (emitLine_ownWork s l).field State.view
@[simp] theorem emitLine_focus (l : OwnLine) : (emitLine s l).focus = s.focus :=
  (emitLine_ownWork s l).field State.focus
@[simp] theorem emitLine_lens (l : OwnLine) : (emitLine s l).lens = s.lens :=
  (emitLine_ownWork s l).field State.lens
@[simp] theorem emitLine_engine (l : OwnLine) : (emitLine s l).engine = s.engine :=
  (emitLine_ownWork s l).field State.engine
@[simp] theorem emitLine_verify (l : OwnLine) : (emitLine s l).verify = s.verify :=
  (emitLine_ownWork s l).field State.verify
@[simp] theorem emitLine_tether (l : OwnLine) : (emitLine s l).tether = s.tether :=
  (emitLine_ownWork s l).field State.tether
@[simp] theorem emitLine_plainFaults (l : OwnLine) : (emitLine s l).plainFaults = s.plainFaults :=
  (emitLine_ownWork s l).field State.plainFaults
@[simp] theorem emitLine_pending (l : OwnLine) : (emitLine s l).pending = s.pending :=
  (emitLine_ownWork s l).field State.pending
@[simp] theorem emitLine_order (l : OwnLine) : (emitLine s l).order = s.order :=
  (emitLine_reports s l).order
@[simp] theorem emitLine_notice (l : OwnLine) : (emitLine s l).notice = s.notice :=
  (emitLine_reports s l).quiet rfl
@[simp] theorem emitLine_shot (l : OwnLine) (v : Fin 64) : (emitLine s l).shot v = s.shot v := by simp [State.shot]
@[simp] theorem emitLine_mapsOf (l : OwnLine) (v : Fin 64) : (emitLine s l).mapsOf v = s.mapsOf v := by simp [State.mapsOf]

/-! ### `hand` -/

@[simp] theorem hand_phase (n : Notice) : (hand s n).phase = s.phase :=
  (hand_ownWork s n).field State.phase
@[simp] theorem hand_caSel (n : Notice) : (hand s n).caSel = s.caSel :=
  (hand_ownWork s n).field State.caSel
@[simp] theorem hand_memSize (n : Notice) : (hand s n).memSize = s.memSize :=
  (hand_ownWork s n).field State.memSize
@[simp] theorem hand_lensPin (n : Notice) : (hand s n).lensPin = s.lensPin :=
  (hand_ownWork s n).field State.lensPin
@[simp] theorem hand_now (n : Notice) : (hand s n).now = s.now :=
  (hand_ownWork s n).field State.now
@[simp] theorem hand_link (n : Notice) : (hand s n).link = s.link :=
  (hand_ownWork s n).field State.link
@[simp] theorem hand_maps (n : Notice) : (hand s n).maps = s.maps :=
  (hand_ownWork s n).field State.maps
@[simp] theorem hand_pool (n : Notice) : (hand s n).pool = s.pool :=
  (hand_ownWork s n).field State.pool
@[simp] theorem hand_shots (n : Notice) : (hand s n).shots = s.shots :=
  (hand_ownWork s n).field State.shots
@[simp] theorem hand_table (n : Notice) : (hand s n).table = s.table :=
  (hand_ownWork s n).field State.table
@[simp] theorem hand_taps (n : Notice) : (hand s n).taps = s.taps :=
  (hand_ownWork s n).field State.taps
@[simp] theorem hand_view (n : Notice) : (hand s n).view = s.view :=
  (hand_ownWork s n).field State.view
@[simp] theorem hand_focus (n : Notice) : (hand s n).focus = s.focus :=
  (hand_ownWork s n).field State.focus
@[simp] theorem hand_lens (n : Notice) : (hand s n).lens = s.lens :=
  (hand_ownWork s n).field State.lens
@[simp] theorem hand_engine (n : Notice) : (hand s n).engine = s.engine :=
  (hand_ownWork s n).field State.engine
@[simp] theorem hand_verify (n : Notice) : (hand s n).verify = s.verify :=
  (hand_ownWork s n).field State.verify
@[simp] theorem hand_tether (n : Notice) : (hand s n).tether = s.tether :=
  (hand_ownWork s n).field State.tether
@[simp] theorem hand_plainFaults (n : Notice) : (hand s n).plainFaults = s.plainFaults :=
  (hand_ownWork s n).field State.plainFaults
@[simp] theorem hand_pending (n : Notice) : (hand s n).pending = s.pending :=
  (hand_ownWork s n).field State.pending
@[simp] theorem hand_order (n : Notice) : (hand s n).order = s.order :=
  (hand_marked_reports s n).order
@[simp] theorem hand_shot (n : Notice) (v : Fin 64) : (hand s n).shot v = s.shot v := by simp [State.shot]
@[simp] theorem hand_mapsOf (n : Notice) (v : Fin 64) : (hand s n).mapsOf v = s.mapsOf v := by simp [State.mapsOf]

/-! ### `publish` -/

@[simp] theorem publish_phase (n : Fin 9) : (publish s n).phase = s.phase :=
  (publish_ownWork s n).field State.phase
@[simp] theorem publish_caSel (n : Fin 9) : (publish s n).caSel = s.caSel :=
  (publish_ownWork s n).field State.caSel
@[simp] theorem publish_memSize (n : Fin 9) : (publish s n).memSize = s.memSize :=
  (publish_ownWork s n).field State.memSize
@[simp] theorem publish_lensPin (n : Fin 9) : (publish s n).lensPin = s.lensPin :=
  (publish_ownWork s n).field State.lensPin
@[simp] theorem publish_now (n : Fin 9) : (publish s n).now = s.now :=
  (publish_ownWork s n).field State.now
@[simp] theorem publish_link (n : Fin 9) : (publish s n).link = s.link :=
  (publish_ownWork s n).field State.link
@[simp] theorem publish_maps (n : Fin 9) : (publish s n).maps = s.maps :=
  (publish_ownWork s n).field State.maps
@[simp] theorem publish_pool (n : Fin 9) : (publish s n).pool = s.pool :=
  (publish_ownWork s n).field State.pool
@[simp] theorem publish_shots (n : Fin 9) : (publish s n).shots = s.shots :=
  (publish_ownWork s n).field State.shots
@[simp] theorem publish_table (n : Fin 9) : (publish s n).table = s.table :=
  (publish_ownWork s n).field State.table
@[simp] theorem publish_taps (n : Fin 9) : (publish s n).taps = s.taps :=
  (publish_ownWork s n).field State.taps
@[simp] theorem publish_view (n : Fin 9) : (publish s n).view = s.view :=
  (publish_ownWork s n).field State.view
@[simp] theorem publish_focus (n : Fin 9) : (publish s n).focus = s.focus :=
  (publish_ownWork s n).field State.focus
@[simp] theorem publish_lens (n : Fin 9) : (publish s n).lens = s.lens :=
  (publish_ownWork s n).field State.lens
@[simp] theorem publish_engine (n : Fin 9) : (publish s n).engine = s.engine :=
  (publish_ownWork s n).field State.engine
@[simp] theorem publish_verify (n : Fin 9) : (publish s n).verify = s.verify :=
  (publish_ownWork s n).field State.verify
@[simp] theorem publish_tether (n : Fin 9) : (publish s n).tether = s.tether :=
  (publish_ownWork s n).field State.tether
@[simp] theorem publish_plainFaults (n : Fin 9) : (publish s n).plainFaults = s.plainFaults :=
  (publish_ownWork s n).field State.plainFaults
@[simp] theorem publish_pending (n : Fin 9) : (publish s n).pending = s.pending :=
  (publish_ownWork s n).field State.pending
@[simp] theorem publish_order (n : Fin 9) : (publish s n).order = s.order :=
  (publish_reports s n).order
@[simp] theorem publish_notice (n : Fin 9) : (publish s n).notice = s.notice :=
  (publish_reports s n).quiet rfl
@[simp] theorem publish_shot (n : Fin 9) (v : Fin 64) : (publish s n).shot v = s.shot v := by simp [State.shot]
@[simp] theorem publish_mapsOf (n : Fin 9) (v : Fin 64) : (publish s n).mapsOf v = s.mapsOf v := by simp [State.mapsOf]

/-! ### `mirror` -/

@[simp] theorem mirror_phase (w : Fin 64) (ls : List (Fin 64)) : (mirror s w ls).phase = s.phase :=
  (mirror_ownWork s w ls).field State.phase
@[simp] theorem mirror_caSel (w : Fin 64) (ls : List (Fin 64)) : (mirror s w ls).caSel = s.caSel :=
  (mirror_ownWork s w ls).field State.caSel
@[simp] theorem mirror_memSize (w : Fin 64) (ls : List (Fin 64)) : (mirror s w ls).memSize = s.memSize :=
  (mirror_ownWork s w ls).field State.memSize
@[simp] theorem mirror_lensPin (w : Fin 64) (ls : List (Fin 64)) : (mirror s w ls).lensPin = s.lensPin :=
  (mirror_ownWork s w ls).field State.lensPin
@[simp] theorem mirror_now (w : Fin 64) (ls : List (Fin 64)) : (mirror s w ls).now = s.now :=
  (mirror_ownWork s w ls).field State.now
@[simp] theorem mirror_link (w : Fin 64) (ls : List (Fin 64)) : (mirror s w ls).link = s.link :=
  (mirror_ownWork s w ls).field State.link
@[simp] theorem mirror_maps (w : Fin 64) (ls : List (Fin 64)) : (mirror s w ls).maps = s.maps :=
  (mirror_ownWork s w ls).field State.maps
@[simp] theorem mirror_pool (w : Fin 64) (ls : List (Fin 64)) : (mirror s w ls).pool = s.pool :=
  (mirror_ownWork s w ls).field State.pool
@[simp] theorem mirror_shots (w : Fin 64) (ls : List (Fin 64)) : (mirror s w ls).shots = s.shots :=
  (mirror_ownWork s w ls).field State.shots
@[simp] theorem mirror_table (w : Fin 64) (ls : List (Fin 64)) : (mirror s w ls).table = s.table :=
  (mirror_ownWork s w ls).field State.table
@[simp] theorem mirror_taps (w : Fin 64) (ls : List (Fin 64)) : (mirror s w ls).taps = s.taps :=
  (mirror_ownWork s w ls).field State.taps
@[simp] theorem mirror_view (w : Fin 64) (ls : List (Fin 64)) : (mirror s w ls).view = s.view :=
  (mirror_ownWork s w ls).field State.view
@[simp] theorem mirror_focus (w : Fin 64) (ls : List (Fin 64)) : (mirror s w ls).focus = s.focus :=
  (mirror_ownWork s w ls).field State.focus
@[simp] theorem mirror_lens (w : Fin 64) (ls : List (Fin 64)) : (mirror s w ls).lens = s.lens :=
  (mirror_ownWork s w ls).field State.lens
@[simp] theorem mirror_engine (w : Fin 64) (ls : List (Fin 64)) : (mirror s w ls).engine = s.engine :=
  (mirror_ownWork s w ls).field State.engine
@[simp] theorem mirror_verify (w : Fin 64) (ls : List (Fin 64)) : (mirror s w ls).verify = s.verify :=
  (mirror_ownWork s w ls).field State.verify
@[simp] theorem mirror_tether (w : Fin 64) (ls : List (Fin 64)) : (mirror s w ls).tether = s.tether :=
  (mirror_ownWork s w ls).field State.tether
@[simp] theorem mirror_plainFaults (w : Fin 64) (ls : List (Fin 64)) : (mirror s w ls).plainFaults = s.plainFaults :=
  (mirror_ownWork s w ls).field State.plainFaults
@[simp] theorem mirror_pending (w : Fin 64) (ls : List (Fin 64)) : (mirror s w ls).pending = s.pending :=
  (mirror_ownWork s w ls).field State.pending
@[simp] theorem mirror_order (w : Fin 64) (ls : List (Fin 64)) : (mirror s w ls).order = s.order :=
  (mirror_reports s w ls).order
@[simp] theorem mirror_notice (w : Fin 64) (ls : List (Fin 64)) : (mirror s w ls).notice = s.notice :=
  (mirror_reports s w ls).quiet rfl
@[simp] theorem mirror_shot (w : Fin 64) (ls : List (Fin 64)) (v : Fin 64) : (mirror s w ls).shot v = s.shot v := by simp [State.shot]
@[simp] theorem mirror_mapsOf (w : Fin 64) (ls : List (Fin 64)) (v : Fin 64) : (mirror s w ls).mapsOf v = s.mapsOf v := by simp [State.mapsOf]

/-! ### `mirrorChanged` -/

@[simp] theorem mirrorChanged_phase (w : Fin 64) (old : Shot) : (mirrorChanged s w old).phase = s.phase :=
  (mirror_ownWork s w _).field State.phase
@[simp] theorem mirrorChanged_caSel (w : Fin 64) (old : Shot) : (mirrorChanged s w old).caSel = s.caSel :=
  (mirror_ownWork s w _).field State.caSel
@[simp] theorem mirrorChanged_memSize (w : Fin 64) (old : Shot) : (mirrorChanged s w old).memSize = s.memSize :=
  (mirror_ownWork s w _).field State.memSize
@[simp] theorem mirrorChanged_lensPin (w : Fin 64) (old : Shot) : (mirrorChanged s w old).lensPin = s.lensPin :=
  (mirror_ownWork s w _).field State.lensPin
@[simp] theorem mirrorChanged_now (w : Fin 64) (old : Shot) : (mirrorChanged s w old).now = s.now :=
  (mirror_ownWork s w _).field State.now
@[simp] theorem mirrorChanged_link (w : Fin 64) (old : Shot) : (mirrorChanged s w old).link = s.link :=
  (mirror_ownWork s w _).field State.link
@[simp] theorem mirrorChanged_maps (w : Fin 64) (old : Shot) : (mirrorChanged s w old).maps = s.maps :=
  (mirror_ownWork s w _).field State.maps
@[simp] theorem mirrorChanged_pool (w : Fin 64) (old : Shot) : (mirrorChanged s w old).pool = s.pool :=
  (mirror_ownWork s w _).field State.pool
@[simp] theorem mirrorChanged_shots (w : Fin 64) (old : Shot) : (mirrorChanged s w old).shots = s.shots :=
  (mirror_ownWork s w _).field State.shots
@[simp] theorem mirrorChanged_table (w : Fin 64) (old : Shot) : (mirrorChanged s w old).table = s.table :=
  (mirror_ownWork s w _).field State.table
@[simp] theorem mirrorChanged_taps (w : Fin 64) (old : Shot) : (mirrorChanged s w old).taps = s.taps :=
  (mirror_ownWork s w _).field State.taps
@[simp] theorem mirrorChanged_view (w : Fin 64) (old : Shot) : (mirrorChanged s w old).view = s.view :=
  (mirror_ownWork s w _).field State.view
@[simp] theorem mirrorChanged_focus (w : Fin 64) (old : Shot) : (mirrorChanged s w old).focus = s.focus :=
  (mirror_ownWork s w _).field State.focus
@[simp] theorem mirrorChanged_lens (w : Fin 64) (old : Shot) : (mirrorChanged s w old).lens = s.lens :=
  (mirror_ownWork s w _).field State.lens
@[simp] theorem mirrorChanged_engine (w : Fin 64) (old : Shot) : (mirrorChanged s w old).engine = s.engine :=
  (mirror_ownWork s w _).field State.engine
@[simp] theorem mirrorChanged_verify (w : Fin 64) (old : Shot) : (mirrorChanged s w old).verify = s.verify :=
  (mirror_ownWork s w _).field State.verify
@[simp] theorem mirrorChanged_tether (w : Fin 64) (old : Shot) : (mirrorChanged s w old).tether = s.tether :=
  (mirror_ownWork s w _).field State.tether
@[simp] theorem mirrorChanged_plainFaults (w : Fin 64) (old : Shot) : (mirrorChanged s w old).plainFaults = s.plainFaults :=
  (mirror_ownWork s w _).field State.plainFaults
@[simp] theorem mirrorChanged_pending (w : Fin 64) (old : Shot) : (mirrorChanged s w old).pending = s.pending :=
  (mirror_ownWork s w _).field State.pending
@[simp] theorem mirrorChanged_order (w : Fin 64) (old : Shot) : (mirrorChanged s w old).order = s.order :=
  (mirror_reports s w _).order
@[simp] theorem mirrorChanged_notice (w : Fin 64) (old : Shot) : (mirrorChanged s w old).notice = s.notice :=
  (mirror_reports s w _).quiet rfl
@[simp] theorem mirrorChanged_shot (w : Fin 64) (old : Shot) (v : Fin 64) : (mirrorChanged s w old).shot v = s.shot v := by simp [State.shot]
@[simp] theorem mirrorChanged_mapsOf (w : Fin 64) (old : Shot) (v : Fin 64) : (mirrorChanged s w old).mapsOf v = s.mapsOf v := by simp [State.mapsOf]

/-! ### `finishOrder` -/

@[simp] theorem finishOrder_phase (o : OrderRecord) (st : OrderStatus) : (finishOrder s o st).phase = s.phase :=
  (finishOrder_ownWork s o st).field State.phase
@[simp] theorem finishOrder_caSel (o : OrderRecord) (st : OrderStatus) : (finishOrder s o st).caSel = s.caSel :=
  (finishOrder_ownWork s o st).field State.caSel
@[simp] theorem finishOrder_memSize (o : OrderRecord) (st : OrderStatus) : (finishOrder s o st).memSize = s.memSize :=
  (finishOrder_ownWork s o st).field State.memSize
@[simp] theorem finishOrder_lensPin (o : OrderRecord) (st : OrderStatus) : (finishOrder s o st).lensPin = s.lensPin :=
  (finishOrder_ownWork s o st).field State.lensPin
@[simp] theorem finishOrder_now (o : OrderRecord) (st : OrderStatus) : (finishOrder s o st).now = s.now :=
  (finishOrder_ownWork s o st).field State.now
@[simp] theorem finishOrder_link (o : OrderRecord) (st : OrderStatus) : (finishOrder s o st).link = s.link :=
  (finishOrder_ownWork s o st).field State.link
@[simp] theorem finishOrder_maps (o : OrderRecord) (st : OrderStatus) : (finishOrder s o st).maps = s.maps :=
  (finishOrder_ownWork s o st).field State.maps
@[simp] theorem finishOrder_pool (o : OrderRecord) (st : OrderStatus) : (finishOrder s o st).pool = s.pool :=
  (finishOrder_ownWork s o st).field State.pool
@[simp] theorem finishOrder_shots (o : OrderRecord) (st : OrderStatus) : (finishOrder s o st).shots = s.shots :=
  (finishOrder_ownWork s o st).field State.shots
@[simp] theorem finishOrder_table (o : OrderRecord) (st : OrderStatus) : (finishOrder s o st).table = s.table :=
  (finishOrder_ownWork s o st).field State.table
@[simp] theorem finishOrder_taps (o : OrderRecord) (st : OrderStatus) : (finishOrder s o st).taps = s.taps :=
  (finishOrder_ownWork s o st).field State.taps
@[simp] theorem finishOrder_view (o : OrderRecord) (st : OrderStatus) : (finishOrder s o st).view = s.view :=
  (finishOrder_ownWork s o st).field State.view
@[simp] theorem finishOrder_focus (o : OrderRecord) (st : OrderStatus) : (finishOrder s o st).focus = s.focus :=
  (finishOrder_ownWork s o st).field State.focus
@[simp] theorem finishOrder_lens (o : OrderRecord) (st : OrderStatus) : (finishOrder s o st).lens = s.lens :=
  (finishOrder_ownWork s o st).field State.lens
@[simp] theorem finishOrder_engine (o : OrderRecord) (st : OrderStatus) : (finishOrder s o st).engine = s.engine :=
  (finishOrder_ownWork s o st).field State.engine
@[simp] theorem finishOrder_verify (o : OrderRecord) (st : OrderStatus) : (finishOrder s o st).verify = s.verify :=
  (finishOrder_ownWork s o st).field State.verify
@[simp] theorem finishOrder_tether (o : OrderRecord) (st : OrderStatus) : (finishOrder s o st).tether = s.tether :=
  (finishOrder_ownWork s o st).field State.tether
@[simp] theorem finishOrder_plainFaults (o : OrderRecord) (st : OrderStatus) : (finishOrder s o st).plainFaults = s.plainFaults :=
  (finishOrder_ownWork s o st).field State.plainFaults
@[simp] theorem finishOrder_pending (o : OrderRecord) (st : OrderStatus) : (finishOrder s o st).pending = s.pending :=
  (finishOrder_ownWork s o st).field State.pending
@[simp] theorem finishOrder_shot (o : OrderRecord) (st : OrderStatus) (v : Fin 64) : (finishOrder s o st).shot v = s.shot v := by simp [State.shot]
@[simp] theorem finishOrder_mapsOf (o : OrderRecord) (st : OrderStatus) (v : Fin 64) : (finishOrder s o st).mapsOf v = s.mapsOf v := by simp [State.mapsOf]

/-! ### `evaluateAttention` -/

@[simp] theorem evaluateAttention_phase : (evaluateAttention s).phase = s.phase :=
  (evaluateAttention_ownWork s).field State.phase
@[simp] theorem evaluateAttention_caSel : (evaluateAttention s).caSel = s.caSel :=
  (evaluateAttention_ownWork s).field State.caSel
@[simp] theorem evaluateAttention_memSize : (evaluateAttention s).memSize = s.memSize :=
  (evaluateAttention_ownWork s).field State.memSize
@[simp] theorem evaluateAttention_lensPin : (evaluateAttention s).lensPin = s.lensPin :=
  (evaluateAttention_ownWork s).field State.lensPin
@[simp] theorem evaluateAttention_now : (evaluateAttention s).now = s.now :=
  (evaluateAttention_ownWork s).field State.now
@[simp] theorem evaluateAttention_link : (evaluateAttention s).link = s.link :=
  (evaluateAttention_ownWork s).field State.link
@[simp] theorem evaluateAttention_maps : (evaluateAttention s).maps = s.maps :=
  (evaluateAttention_ownWork s).field State.maps
@[simp] theorem evaluateAttention_pool : (evaluateAttention s).pool = s.pool :=
  (evaluateAttention_ownWork s).field State.pool
@[simp] theorem evaluateAttention_shots : (evaluateAttention s).shots = s.shots :=
  (evaluateAttention_ownWork s).field State.shots
@[simp] theorem evaluateAttention_table : (evaluateAttention s).table = s.table :=
  (evaluateAttention_ownWork s).field State.table
@[simp] theorem evaluateAttention_taps : (evaluateAttention s).taps = s.taps :=
  (evaluateAttention_ownWork s).field State.taps
@[simp] theorem evaluateAttention_view : (evaluateAttention s).view = s.view :=
  (evaluateAttention_ownWork s).field State.view
@[simp] theorem evaluateAttention_focus : (evaluateAttention s).focus = s.focus :=
  (evaluateAttention_ownWork s).field State.focus
@[simp] theorem evaluateAttention_lens : (evaluateAttention s).lens = s.lens :=
  (evaluateAttention_ownWork s).field State.lens
@[simp] theorem evaluateAttention_engine : (evaluateAttention s).engine = s.engine :=
  (evaluateAttention_ownWork s).field State.engine
@[simp] theorem evaluateAttention_verify : (evaluateAttention s).verify = s.verify :=
  (evaluateAttention_ownWork s).field State.verify
@[simp] theorem evaluateAttention_tether : (evaluateAttention s).tether = s.tether :=
  (evaluateAttention_ownWork s).field State.tether
@[simp] theorem evaluateAttention_plainFaults : (evaluateAttention s).plainFaults = s.plainFaults :=
  (evaluateAttention_ownWork s).field State.plainFaults
@[simp] theorem evaluateAttention_pending : (evaluateAttention s).pending = s.pending :=
  (evaluateAttention_ownWork s).field State.pending
@[simp] theorem evaluateAttention_order : (evaluateAttention s).order = s.order := by
  obtain ⟨c, l, p, e⟩ := evaluateAttention_cases s
  rw [e]
@[simp] theorem evaluateAttention_shot (v : Fin 64) : (evaluateAttention s).shot v = s.shot v := by simp [State.shot]
@[simp] theorem evaluateAttention_mapsOf (v : Fin 64) : (evaluateAttention s).mapsOf v = s.mapsOf v := by simp [State.mapsOf]

/-- Evaluating the attention condition moves the line as its mode says (R174, R175). -/
theorem evaluateAttention_evaluated :
    AttentionEvaluated s.notice (attentionCondition s) s.now (evaluateAttention s).notice := by
  constructor <;> unfold evaluateAttention <;> split <;> simp_all <;> split <;> simp_all

/-- Everything that issuing a read can do (R56). -/
theorem issueRead_cases (p : ReadPurpose) (a : Nat) :
    (s.port.heldReads = [] ∧ s.port.reads.length < Config.readPlaces ∧ issueRead s p a = enterRead s p a) ∨
    ((s.port.heldReads ≠ [] ∨ Config.readPlaces ≤ s.port.reads.length) ∧
      issueRead s p a = { s with port := { s.port with heldReads := s.port.heldReads ++ [(p, a)] } }) := by
  by_cases h : s.port.heldReads = [] <;> by_cases k : s.port.reads.length < Config.readPlaces <;>
    simp [issueRead, h, k, Nat.le_of_not_lt]

/-- The arbiter changes the lens controller alone. -/
theorem arbitrate_lens : arbitrate s = { s with lens := (arbitrate s).lens } := by
  unfold arbitrate beginMessage beginDrive beginExchange
  repeat' split
  all_goals rfl

/-- Asking for a line changes the engine's wait and the reads alone. -/
theorem requestLine_cases (w : Fin 64) (l : Nat) :
    (s.rawEntry w (64 * l / Config.granule) = none ∧
      requestLine s w l = s.setEngine { s.engine with replayLine := .zeros }) ∨
    ∃ n, s.rawEntry w (64 * l / Config.granule) = some n ∧
      requestLine s w l = issueRead (s.setEngine { s.engine with replayLine := .issued }) .replay
        (n * Config.granule + 64 * l % Config.granule) := by
  cases h : s.rawEntry w (64 * l / Config.granule) with
  | none => exact .inl ⟨rfl, by simp [requestLine, h]⟩
  | some n => exact .inr ⟨n, rfl, by simp [requestLine, h]⟩

end Sys2Proof.Machine
end

