-- ==== Sys2Proof/Tests/Slice0.lean ====
section
/-! SUPPORT. Checks of the model against figures that the spec works out, and one witness for each statement that has
hypotheses: a concrete state and operands that meet them all. Expected figures are the spec's own, or worked by hand from it. -/

namespace Sys2Proof.Tests

open Sys2Proof Machine

set_option Elab.async false

/-! ### Small states -/

/-- A valid profile of 512 × 256: raw length 262144, one raw granule and one preview granule. -/
def prof : Profile :=
  { width := 512, height := 256, mosaic := .rFirst, black := ⟨64, 64, 64, 64⟩, white := 16000, timeout := 200,
    storyKey := 3, rating := 4, site := ⟨16, 4, 8, 0, 4⟩, grid := ⟨0, 0, 256, 64, 2, 4⟩, kz := 1024, developed := true,
    devSet := { scale := 2, gains := ⟨4096, 4096, 4096⟩, matrix := ⟨⟨4096, 0, 0⟩, ⟨0, 4096, 0⟩, ⟨0, 0, 4096⟩⟩, tone := 0 },
    cardRequired := true, tetherEvaluated := true }

/-- A started part with 16 GiB, the control area at 0x0_0010_0000, a pool of 8 granules from 2048 and slot 0 valid. -/
def begun : State :=
  let s := State.powerOn 0 3 false []
  { s with
    phase := .started
    pool := { first := 2048, size := 8, free := (List.range 8).map fun i => 2048 + i, low := 1, high := 2, armed := true }
    table := { s.table with profiles := s.table.profiles.set 0 (some prof), cursor := some 0, admissible := true } }

/-- The record of an open shot under `prof`. -/
def open1 : Shot :=
  { freeShot with
    state := .capturing, seq := 1, copy := some { slot := 0, profile := prof }, width := 512, height := 256,
    rawLength := 262144, reservation := 1, rawMapped := 1, devSet := some prof.devSet, dev := .none, rating := 4,
    storyKey := 3, timer := .running 200000 }

/-- The record of a sealed shot under `prof`, with its card and tether still to come. -/
def sealed1 : Shot :=
  { open1 with
    state := .sealed, timer := .stopped, card := .pending, tether := .undecided, dev := .done, reservation := 0,
    crc := some (0x12345678, .inline), previewMapped := 1 }

/-- `begun` with a shot in window 5 that holds granule 2048 as raw and 2049 as preview memory. -/
def holding (x : Shot) : State :=
  { begun.setShot 5 x with
    maps := begun.maps.set 5 { raw := emptyMaps.raw.set 0 (some 2048), preview := emptyMaps.preview.set 0 (some 2049) }
    pool := { begun.pool with free := (List.range 6).map fun i => 2050 + i }
    table := { begun.table with seqCounter := 2, lastOpened := 5, cursor := some 6 } }

/-- A state in which one request waits. -/
def asked (s : State) (r : Request) : State :=
  { s with link := { s.link with waiting := [r], credits := 31 } }

/-- A write of 64 bytes. -/
def writeOf (tag : BitVec 3) (addr : BitVec 36) (mask : BitVec 64) : Request :=
  { tag := tag, txn := 0, addr := addr, kind := .write (List.replicate 64 7) mask }

/-- A read. -/
def readOf (tag : BitVec 3) (addr : BitVec 36) : Request := { tag := tag, txn := 9, addr := addr, kind := .read }

/-- The record of an order with the given code and parameters about shot 1 in window 5. -/
def orderOf (code : Nat) (params : List Byte) : OrderRecord :=
  { code := code, notify := true, tag := 7, window := 5, staging := 0, seq := 1, params := params }

/-- A state in which that order, with an image, has been handed to its owner. -/
def handed (s : State) (code : Nat) (params img : List Byte) : State :=
  { s with order := { post := 1, taken := 0, phase := .dispatched (orderOf code params) img } }

/-- A focus setup image (11.3): one buffer at 64 MiB, 512 × 256, the grid of `prof`, D 2, cmin 100, cthr 128, tol 64, hys 48,
stick margin 128, deadband 4, view kz 1024, every change mode ANY-CHANGE. -/
def focusImage (base : Nat) : List Byte :=
  padTo 8 [1] ++ leBytes 8 base ++ List.replicate 24 0 ++ leBytes 2 512 ++ leBytes 2 256 ++ padTo 12 [0, 64, 0, 64, 0, 64, 0, 64, 0] ++
  padTo 8 [16, 4, 8, 0, 4] ++ padTo 16 (leBytes 2 0 ++ leBytes 2 0 ++ leBytes 2 256 ++ leBytes 2 64 ++ [2, 4]) ++
  padTo 48 (leBytes 2 1024 ++ [2] ++ leBytes 2 100 ++ [128] ++ leBytes 2 64 ++ leBytes 2 48 ++ leBytes 2 128 ++ leBytes 2 4) ++
  padTo 64 (List.replicate 63 3)

/-- The setup of that image. -/
def setup : FocusSetup :=
  { bufferCount := 1, bases := #v[0x4000000, 0, 0, 0], width := 512, height := 256, mosaic := .rFirst, black := ⟨64, 64, 64, 64⟩,
    site := ⟨16, 4, 8, 0, 4⟩, grid := ⟨0, 0, 256, 64, 2, 4⟩, kz := 1024, search := 2, cmin := 100, cthr := 128, tol := 64,
    hys := 48, stick := 128, deadband := 4, modes := .replicate 63 .anyChange }

/-- `begun` with that setup in force. -/
def viewing : State :=
  { begun with
    focus := { begun.focus with setup := some setup }
    view := { begun.view with lastGridLine := lastGridLineOf setup } }

/-- `begun` with a READY lens. -/
def lensed : State :=
  { begun with
    lensPin := true
    lens := { begun.lens with
      state := .ready, info := some { identity := 3, minimum := 0, maximum := 5000 },
      report := some { position := 1500, moving := false } } }

/-! ### Well-formedness -/

theorem test_short_write_refused :
    (Instr.requestArrives { tag := 0, txn := 0, addr := 0, kind := .write [1, 2, 3] fullMask }).wf = false := by decide

theorem test_long_write_refused :
    (Instr.requestArrives { tag := 0, txn := 0, addr := 0, kind := .write (List.replicate 65 0) fullMask }).wf = false := by
  decide

theorem test_whole_write_accepted : (Instr.requestArrives (writeOf 1 0 fullMask)).wf = true := by decide

/-! ### Figures that the spec works out -/

/-- R139: over the nine digits "123456789" the definition gives 0xCBF43926. -/
theorem test_crc_of_digits :
    crcFinish (crcBytes crcInit [0x31, 0x32, 0x33, 0x34, 0x35, 0x36, 0x37, 0x38, 0x39]) = 0xCBF43926 := by decide +kernel

/-- 1.7, worked figures: the need of the largest frame at s = 1, 2 and 4, and without development. -/
theorem test_need_of_largest_frame :
    (let p : Profile := { prof with width := 8256, height := 5504 }
     let at_ (s : Nat) : Nat := Profile.need { p with devSet := { p.devSet with scale := s } }
     (at_ 1, at_ 2, at_ 4, Profile.need { p with developed := false })) = (131, 98, 90, 87) := by decide +kernel

/-- 1.7, worked figures: 6016 × 4016 at s = 2 needs 53, the smallest frame 2 at s = 1. -/
theorem test_need_of_smaller_frames :
    (Profile.need { prof with width := 6016, height := 4016 },
      Profile.need { prof with devSet := { prof.devSet with scale := 1 } }) = (53, 2) := by decide +kernel

/-- 4.1, worked figures: line 273,578 of a frame 8256 wide lies in row 1060 from column 3136. -/
theorem test_place_of_line : (lineRow 8256 273578, lineColumn 8256 273578) = (1060, 3136) := by decide

/-- 4.2, worked figures: the still-check range of zone 17 runs from line 273,578 to line 401,577. -/
theorem test_still_check_range :
    (let p : Profile := { prof with width := 8256, height := 5504, site := ⟨16, 4, 8, 0, 4⟩, grid := ⟨64, 32, 1024, 512, 7, 5⟩ }
     (lastStillLine p 17, stillLine p 17 273578, stillLine p 17 273577, stillLine p 17 401577, stillLine p 17 401578)) =
    (some 401577, true, false, true, false) := by decide +kernel

/-- 4.4, worked sequence: the last grid line is 84,285. -/
theorem test_last_grid_line :
    lastGridLineOf { setup with width := 2048, height := 1360, grid := ⟨64, 40, 384, 256, 5, 5⟩ } = 84285 := by
  decide +kernel

/-- 5.4, worked figures: the sub-bin fit with a 240, c 180, b 520 gives off −105, conf 166, and 7 steps at kz 3200. -/
theorem test_sub_bin_fit :
    (fitOffset 240 520 180, fitConfidence 240 520 180, lensSteps (256 - 105) 3200) = (-105, 166, 7) := by decide +kernel

/-- The profiles of the worked case of 5.4. -/
def workedProfiles : Profiles :=
  { left := (((Vector.replicate 32 100).set 14 300).set 15 500).set 16 300
    right := (((Vector.replicate 32 200).set 15 400).set 16 1000).set 17 800 }

/-- 5.4, worked case: q 314, conf 202, ratio 204, steps 5. -/
theorem test_measurement_worked_case :
    measure workedProfiles 2 100 1024 =
      { lowContrast := false, q := 314, conf := 202, ratio := 204, steps := 5, beyond := false } := by decide +kernel

/-- 5.4, worked case: below the contrast floor, and at the edge of a search of 1. -/
theorem test_measurement_edge_cases :
    (measure workedProfiles 2 300 1024 =
      { lowContrast := true, q := 0, conf := 0, ratio := 204, steps := 0, beyond := false }) ∧
    measure workedProfiles 1 100 1024 =
      { lowContrast := false, q := 256, conf := 0, ratio := 204, steps := 4, beyond := true } := by decide +kernel

/-- 5.5, worked figures: hysteresis over five views. -/
theorem test_hysteresis :
    (let f := { setup with cthr := 100 }
     let z (old : ZoneState) (q : Int) : ZoneState :=
       zoneStateOf f old { lowContrast := false, q := q, conf := 150, ratio := 0, steps := 0, beyond := false }
     [z .near 40, z .inFocus 100, z .inFocus 120, z .near 90, z .near 60]) = [.inFocus, .inFocus, .near, .near, .inFocus] := by
  decide +kernel

/-- 5.6, worked figures: the stick margin keeps zone 11 at a difference of 82 and gives it up at 160. -/
theorem test_stick_margin :
    (let f := { setup with grid := ⟨0, 0, 256, 64, 7, 5⟩ }
     let z (s : ZoneState) (q : Int) : ZoneRecord := { noDataZone with state := s, q := q }
     let zones (a b c : ZoneRecord) : Vector ZoneRecord 63 := ((((Vector.replicate 63 noDataZone).set 10 a).set 11 b).set 12 c)
     let set : BitVec 64 := 0x1C00
     (choosePrimary f set (zones (z .near 512) (z .near 430) (z .unsure 700)) (some 11),
      choosePrimary f set (zones (z .near 600) (z .near 440) (z .unsure 650)) (some 11),
      choosePrimary f set (zones (z .unsure 0) (z .lowContrast 0) (z .unsure 0)) (some 10))) =
    (some 11, some 10, some 10) := by decide +kernel

/-- 7.2, worked figures: one pixel through the pipeline, from the samples 2100, 3120, 3080 and 1500. -/
theorem test_worked_pixel :
    (let x : Rgb Nat := ⟨balanced 8192 (2100 - 512), balanced 4096 ((3120 - 512 + (3080 - 512)) / 2), balanced 6144 (1500 - 512)⟩
     let t := ((((((Vector.replicate 257 0).set 3 40).set 4 52).set 10 100).set 11 106).set 14 118).set 15 124
     (x, toned t (matrixChannel ⟨6144, -1536, -512⟩ x), toned t (matrixChannel ⟨-1024, 5632, -512⟩ x),
      toned t (matrixChannel ⟨0, -2048, 6144⟩ x))) = (⟨3176, 2588, 1482⟩, 119, 100, 48) := by decide +kernel

/-- 7.2, limits: gain saturation, a negative matrix sum, and a falling tone table. -/
theorem test_pipeline_limits :
    (balanced 65535 16383, matrixChannel ⟨-4096, 0, 0⟩ ⟨2000, 0, 0⟩,
      toned (((Vector.replicate 257 0).set 20 150).set 21 146) 5320) = (65535, 0, 147) := by decide +kernel

/-- 7.2, limits: PD fill at the row's edge, inside the row, and among dense sites. -/
theorem test_pd_fill :
    (let raw : RawSamples := fun _ c => if c = 0 then 900 else if c = 2 then 2000 else if c = 4 then 700 else 2100
     let dense : Profile := { prof with site := ⟨16, 4, 4, 0, 2⟩ }
     (filledValue prof raw 4 0, filledValue prof raw 4 4, filledValue dense (fun _ _ => 650) 4 8,
      blockFilled dense [(4, 8)])) = (2000, 2050, 650, true) := by decide +kernel

/-- 6.5: the speed classes at the ends of their ranges. -/
theorem test_speed_classes :
    [0, 15, 16, 127, 128, 1023, 1024].map speedClass = [0, 0, 1, 1, 2, 2, 3] := by decide

/-- 11.4: a DRIVE request frame with its check byte, and a STATUS reply that is good and one with a wrong check byte. -/
theorem test_lens_frames :
    requestFrame (.drive 1530 1) = [0x03, 0xFA, 0x05, 0x01, 0x03] ∧
    (judgeReply .status [0x02, 0x01, 0xA2, 0x08, 0x00, 0xAD]).map Reply.report = some { position := 2210, moving := false } ∧
    judgeReply .status [0x02, 0x01, 0xA2, 0x08, 0x00, 0xAE] = none := by decide +kernel

/-- R181: a reply that goes on past its length is a timeout, and so is a lens-own reply with a length byte above 8. -/
theorem test_lens_reply_lengths :
    judgeReply .status [0x02, 0x01, 0xA2, 0x08, 0x00, 0xAD, 0x00] = none ∧
    judgeReply (.message { tag := 1, kind := 0x40, data := [] }) ([0x40, 0, 0, 0, 0, 9] ++ List.replicate 9 0 ++ [0x49]) = none ∧
    (judgeReply (.message { tag := 1, kind := 0x40, data := [] }) [0x40, 0, 0, 0, 0, 1, 5, 0x46]).map Reply.data = some [5] := by
  decide +kernel

/-- 3.3, worked sequence: ring slot 5 lies at 0x0_4000_2140, and window 3 of shot space at 0x8_1800_0000. -/
theorem test_addresses :
    orderAddr (State.powerOn 1 3 false []) 5 = 0x40002140 ∧ classify 0x818000000 = .shot 3 0 ∧
    classify 0xA04000040 = .preview 1 64 ∧ classify 0xB00000000 = .unassigned ∧ classify 0x7FFFFFFC0 = .plain := by
  decide +kernel

/-- 7.3: the row that a boundary of the worked sequence completes; output row 300 at s = 2 ends with input row 1203. -/
theorem test_boundary :
    (let p : Profile := { prof with width := 6016, height := 4016 }
     let j : Job := { window := 12, seq := 1, kind := .develop, set := none, nextRow := 0, begun := true, saved := none }
     (boundaryAt p j (1204 * 188), boundaryAt p j (1203 * 188), boundaryAt p { j with kind := .check } (1203 * 188))) =
    (true, false, true) := by decide +kernel

/-- R125: a row of 16 pixels at preview offset 96 lies in two lines, each with the mask of the row's own bytes. -/
theorem test_row_lines :
    (rowWrites 96 (List.replicate 64 1) false).map (fun l => (l.1, l.2.2)) =
      [(64, rangeMask 32 64), (128, rangeMask 0 32)] := by decide +kernel

/-! ### What witnesses share -/

/-- A waiting write is the next request that a started part with an empty pass-through queue takes. -/
theorem write_taken {s : State} {r : Request} {data : List Byte} {mask : BitVec 64}
    (h : s.phase = .started ∧ s.port.pass = [] ∧ r.kind = .write data mask := by exact ⟨rfl, rfl, rfl⟩) :
    TakesWrite (asked s r) r [] data mask :=
  ⟨rfl, h.2.2, h.1, by show s.port.pass.length < 32; rw [h.2.1]; decide⟩

/-- The same of a read. -/
theorem read_taken {s : State} {r : Request} (h : s.phase = .started ∧ s.port.pass = [] ∧ r.kind = .read := by
    exact ⟨rfl, rfl, rfl⟩) : TakesRead (asked s r) r [] :=
  ⟨rfl, h.2.2, h.1, by show s.port.pass.length < 32; rw [h.2.1]; decide⟩

/-- An order built by `orderOf` names the shot with sequence number 1 in window 5. -/
theorem names (s : State) (code : Nat) (params : List Byte)
    (h : (s.shot 5).state ≠ .free ∧ (s.shot 5).seq = 1 := by decide +kernel) : Names s (orderOf code params) 5 :=
  ⟨rfl, h.1, h.2⟩

/-! ### Witnesses: laws that every step keeps -/

/-- Whether an outcome is a next state. -/
def isNext (o : Host.Outcome State Fault Refusal) : Bool :=
  match o with
  | .next _ => true
  | _ => false

/-- The next state of an outcome, or another state. -/
def nextOr (d : State) (o : Host.Outcome State Fault Refusal) : State :=
  match o with
  | .next t => t
  | _ => d

theorem eq_next (d : State) (o : Host.Outcome State Fault Refusal) (h : isNext o = true) : o = .next (nextOr d o) := by
  cases o <;> simp_all [isNext, nextOr]

/-- A state whose next step takes a plain write of all 64 bytes. -/
def writing : State := { asked begun (writeOf 0 0x040 fullMask) with pending := [.takeWrite] }

theorem witness_StepRunsFrontCommand : begun.pending = [] := rfl

theorem witness_MemoryCanonicalKept :
    MemoryCanonical writing ∧ step writing = .next (nextOr writing (step writing)) ∧
      (nextOr writing (step writing)).mem.read 0x40 = 7 :=
  ⟨rfl, eq_next _ _ (by decide +kernel), by decide +kernel⟩

theorem witness_QueuesAndIndicesKeepBounds :
    (WithinPlaces writing ∧ IndicesInRange writing) ∧ step writing = .next (nextOr writing (step writing)) :=
  ⟨⟨by constructor <;> decide +kernel, by constructor <;> decide +kernel⟩, eq_next _ _ (by decide +kernel)⟩

theorem witness_CreditsBalanceKept : CreditsBalance writing ∧ step writing = .next (nextOr writing (step writing)) :=
  ⟨by show _ = _; decide +kernel, eq_next _ _ (by decide +kernel)⟩

/-- A READY lens whose STATUS exchange is to end while a target waits. -/
def driveWaits : State :=
  { lensed with
    lens := { lensed.lens with
      drive := some 1530, exchange := some { request := .status, frame := [2, 2], since := 0, judgeStop := false } }
    pending := [.lensExchangeEnd []] }

theorem witness_NoDriveBeginsWhileCapturing :
    step driveWaits = .next (nextOr driveWaits (step driveWaits)) ∧ driving (nextOr driveWaits (step driveWaits)) = true ∧
      ExchangeBegan driveWaits (nextOr driveWaits (step driveWaits)) := by
  refine ⟨eq_next _ _ (by decide +kernel), by decide +kernel, ?_⟩
  have h : (nextOr driveWaits (step driveWaits)).lens.exchange =
      some { request := .drive 1530 1, frame := [3, 250, 5, 1, 3], since := 1000, judgeStop := false } := by decide +kernel
  unfold ExchangeBegan
  rw [h]
  intro y hy
  right
  cases hy
  decide

/-- A FREE window's first line of a frame waits, and is the next to be taken. -/
def opening : State := { asked begun (writeOf 1 0x800000000 fullMask) with pending := [.takeWrite] }

/-- A step that maps granule 2048 of the eight. -/
theorem witness_PoolGranulesStayAccounted :
    PoolSound opening ∧ step opening = .next (nextOr opening (step opening)) ∧
      (nextOr opening (step opening)).rawEntry 0 0 = some 2048 :=
  ⟨by constructor <;> decide +kernel, eq_next _ _ (by decide +kernel), by decide +kernel⟩

theorem witness_SequenceNumbersStayDistinct :
    SequenceSound opening ∧ step opening = .next (nextOr opening (step opening)) := by
  have free : ∀ w, (opening.shot w).state = .free := by decide +kernel
  exact ⟨⟨fun w h => absurd (free w) h, fun v _ h => absurd (free v) h⟩, eq_next _ _ (by decide +kernel)⟩

theorem witness_StartUpEnds :
    controlInside (State.powerOn 2 1 false []) = true ∧ controlInside (State.powerOn 2 0 false []) = false ∧
      controlInside (State.powerOn 3 2 true []) = false ∧ controlInside (State.powerOn 3 3 true []) = true := by
  decide +kernel

/-! ### Witnesses: the link -/

/-- 31 reads of plain space wait. -/
def nearlyFull : State :=
  { begun with link := { begun.link with waiting := List.replicate 31 (readOf 0 0x40), credits := 1 } }

theorem witness_RequestArrivesInSlot :
    (readOf 0 0).wf = true ∧ slotsUsed nearlyFull < 32 ∧
    32 ≤ slotsUsed { nearlyFull with link := { nearlyFull.link with waiting := List.replicate 32 (readOf 0 0x40) } } ∧
    ({ tag := 0, txn := 0, addr := 0, kind := .write [] fullMask } : Request).wf = false := by decide +kernel

/-- The last line below the pool range. -/
def belowPool : Request := writeOf 0 0x07FFFFFC0 fullMask

/-- A CAPTURE write to the line behind the declared view buffer. -/
def besideView : Request := writeOf 1 0x004040000 fullMask

theorem witness_PlainWriteStored :
    MemoryCanonical (asked begun belowPool) ∧
    TakesWrite (asked begun belowPool) belowPool [] (List.replicate 64 7) fullMask ∧
    classify (lineAddr belowPool) = .plain ∧ plainCheck (asked begun belowPool) (lineAddr belowPool) = none ∧
    sourceClass belowPool.tag ≠ .capture ∧
    (sourceClass belowPool.tag = .processor → lineAddr belowPool ≠ controlBase begun.caSel + Config.postIndexAt ∧
      lineAddr belowPool ≠ controlBase begun.caSel + Config.consumedIndexAt) ∧
    TakesWrite (asked viewing besideView) besideView [] (List.replicate 64 7) fullMask ∧
    classify (lineAddr besideView) = .plain ∧ plainCheck (asked viewing besideView) (lineAddr besideView) = none ∧
    sourceClass besideView.tag = .capture ∧ viewLineOf setup (lineAddr besideView) = none ∧
    (viewLineOf setup (lineAddr besideView - 64)).isSome = true := by
  refine ⟨rfl, write_taken, by decide +kernel, by decide +kernel, by decide, by decide +kernel,
    write_taken, ?_⟩
  decide +kernel

/-- Writes to the first unassigned line, to the first line beyond 16 GiB, and to the first and last lines of the pool. -/
def abortedWrites : List Request :=
  [writeOf 0 0xB00000000 0, writeOf 5 0x400000000 fullMask, writeOf 7 0x080000000 fullMask, writeOf 2 0x0807FFFC0 fullMask]

theorem witness_AbortedPlainWriteDropped :
    (∀ r ∈ abortedWrites, (asked begun r).link.waiting = r :: [] ∧ (asked begun r).phase = .started ∧
      (asked begun r).port.pass.length < Config.passThroughPlaces) ∧
    (abortedWrites.map fun r => r.kind) = [.write (List.replicate 64 7) 0, .write (List.replicate 64 7) fullMask,
      .write (List.replicate 64 7) fullMask, .write (List.replicate 64 7) fullMask] ∧
    (abortedWrites.map fun r => (classify (lineAddr r), plainCheck (asked begun r) (lineAddr r))) =
      [(.unassigned, some .noMemory), (.plain, some .noMemory), (.plain, some .poolFence), (.plain, some .poolFence)] ∧
    (∀ r ∈ abortedWrites, (asked begun r).notice.outstanding.get (sourceClass r.tag) = .clear) := by decide +kernel

/-- A strap fault in which one request waits. -/
def strapped (r : Request) : State := asked { State.powerOn 2 0 false [] with phase := .strapFault } r

theorem witness_StrapFaultDropsRequests :
    (∀ r ∈ [writeOf 1 0x800000000 fullMask, readOf 0 0x40], (strapped r).phase = .strapFault ∧
      (strapped r).link.waiting = r :: [] ∧ (strapped r).port.pass.length < 32) ∧
    (writeOf 1 0x800000000 fullMask).kind = .write (List.replicate 64 7) fullMask ∧ (readOf 0 0x40).kind = .read := by
  decide +kernel

/-- A write to the last line of window 5. -/
def lateWrite (tag : BitVec 3) : Request := writeOf tag 0x82803FFC0 fullMask

/-- A write to the line behind the raw length of window 5, and one to the first line of its preview. -/
def beyondWrite : Request := writeOf 1 0x828040000 fullMask

/-- A write to the first line of the preview of window 5. -/
def previewLine : Request := writeOf 1 0xA14000000 fullMask

theorem witness_KeylessShotWriteDropped :
    TakesWrite (asked (holding sealed1) (lateWrite 1)) (lateWrite 1) [] (List.replicate 64 7) fullMask ∧
    TakesWrite (asked (holding open1) (lateWrite 2)) (lateWrite 2) [] (List.replicate 64 7) fullMask ∧
    TakesWrite (asked (holding open1) beyondWrite) beyondWrite [] (List.replicate 64 7) fullMask ∧
    TakesWrite (asked begun (lateWrite 1)) (lateWrite 1) [] (List.replicate 64 7) fullMask ∧
    TakesWrite (asked begun (writeOf 1 0x828000000 1)) (writeOf 1 0x828000000 1) [] (List.replicate 64 7) 1 ∧
    TakesWrite (asked (holding sealed1) previewLine) previewLine [] (List.replicate 64 7) fullMask ∧
    classify (lineAddr (lateWrite 1)) = .shot 5 262080 ∧ classify (lineAddr (lateWrite 2)) = .shot 5 262080 ∧
    classify (lineAddr beyondWrite) = .shot 5 262144 ∧ classify (lineAddr (writeOf 1 0x828000000 1)) = .shot 5 0 ∧
    classify (lineAddr previewLine) = .preview 5 0 ∧ ((holding open1).shot 5).rawLength = 262144 ∧ (1 : BitVec 64) ≠ fullMask ∧
    sourceClass beyondWrite.tag = .capture ∧ (begun.shot 5).state = .free ∧
    ((holding sealed1).shot 5).state = .sealed ∧ ((holding { sealed1 with state := .discarding }).shot 5).state = .discarding ∧
    ((holding open1).shot 5).state = .capturing ∧ sourceClass (lateWrite 2).tag ≠ .capture := by
  refine ⟨write_taken, write_taken, write_taken, write_taken,
    write_taken, write_taken, ?_⟩
  decide +kernel

/-- A full-mask CAPTURE write to the first line of window 6. -/
def firstLine : Request := writeOf 1 0x830000000 fullMask

/-- `begun` with two shots CAPTURING. -/
def twoOpen : State := (begun.setShot 5 open1).setShot 7 { open1 with seq := 2 }

theorem witness_RefusedOpenChangesNothing :
    TakesWrite (asked twoOpen firstLine) firstLine [] (List.replicate 64 7) fullMask ∧
    classify (lineAddr firstLine) = .shot 6 0 ∧ sourceClass firstLine.tag = .capture ∧
    ((asked twoOpen firstLine).shot 6).state = .free ∧
    judgeOpen (asked twoOpen firstLine) = .error .twoOpen :=
  ⟨write_taken, by decide +kernel, rfl, by decide +kernel, by rfl⟩

theorem judgeOpen_ok {s : State} {p : Profile} (h : s.table.seqCounter ≠ 0 ∧ activeProfile s = some p ∧ s.pool.size ≠ 0 ∧
    ¬2 ≤ capturingCount s ∧ ¬available s < p.need) : judgeOpen s = .ok p := by
  simp [judgeOpen, h]

theorem witness_AdmittedOpenInitialisesShot :
    TakesWrite (asked begun firstLine) firstLine [] (List.replicate 64 7) fullMask ∧
    classify (lineAddr firstLine) = .shot 6 0 ∧ sourceClass firstLine.tag = .capture ∧
    ((asked begun firstLine).shot 6).state = .free ∧ judgeOpen (asked begun firstLine) = .ok prof ∧
    (asked begun firstLine).rawEntry 6 0 = none ∧
    ((asked begun firstLine).pool.free = 2048 :: (List.range 7).map fun i => 2049 + i) ∧ 1 ≤ prof.need :=
  ⟨write_taken, by decide +kernel, rfl, by decide +kernel, judgeOpen_ok (by decide +kernel), by decide +kernel⟩

/-- The states an open may find: an IDLE engine, a replaying one, one at work on the inline side with a place in the replay queue and
without; and a READY lens that moves, on a free line and on a busy one, and one at rest on whose line a DRIVE is in flight. -/
def openings : List State :=
  let moving := { lensed.lens with report := some { position := 3, moving := true } }
  let on := fun (l : Lens) (r : LensRequest) =>
    { l with exchange := some { request := r, frame := requestFrame r, since := 0, judgeStop := false } }
  let inlineTaken := fun n => { begun.setShot 7 { sealed1 with seq := 9, dev := .inline } with
    engine := { begun.engine with
      activity := .inline 7
      queue := List.replicate n
        { window := 9, seq := 1, kind := .check, set := none, nextRow := 0, begun := false, saved := none } } }
  [begun, { begun with engine := { begun.engine with activity := .replay } }, inlineTaken 15, inlineTaken 16,
    { lensed with lens := moving }, { lensed with lens := on moving .status }, { lensed with lens := on lensed.lens (.drive 3 1) }]

theorem witness_OpenReachesEngineAndLens :
    (∀ s ∈ openings, TakesWrite (asked s firstLine) firstLine [] (List.replicate 64 7) fullMask ∧
      judgeOpen (asked s firstLine) = .ok prof) ∧
    (∀ s ∈ openings, (s.shot 6).state = .free ∧ s.rawEntry 6 0 = none ∧ s.pool.free.head? = some 2048 ∧
      contextOf s 6 = none ∧ s.taps.fifo.length < 128) ∧
    prof.developed = true ∧
    (openings.map fun s => ((inlineShot s).isSome, decide (s.engine.activity = .idle), s.engine.queue.length)) =
      [(false, true, 0), (false, false, 0), (true, false, 15), (true, false, 16), (false, true, 0), (false, true, 0),
        (false, true, 0)] ∧
    (openings.map fun s => (decide (s.lens.state = .ready), s.lens.report.map PositionReport.moving, s.lens.exchange.isSome)) =
      [(false, none, false), (false, none, false), (false, none, false), (false, none, false), (true, some true, false),
        (true, some true, true), (true, some false, true)] := by
  have fit : ∀ s ∈ openings, (s.phase = .started ∧ s.port.pass = []) ∧ s.table.seqCounter ≠ 0 ∧ activeProfile s = some prof ∧
      s.pool.size ≠ 0 ∧ ¬2 ≤ capturingCount s ∧ ¬available s < prof.need := by decide +kernel
  exact ⟨fun s h => ⟨write_taken ⟨(fit s h).1.1, (fit s h).1.2, rfl⟩, judgeOpen_ok (fit s h).2⟩, by decide +kernel⟩

/-- The context of the shot in window 5 that waits for its last line but one. -/
def context1 : TapContext :=
  { window := 5, next := 4094, following := true, crc := crcInit, range := none, inlineFeed := false, still := none }

/-- A shot in window 5 that has received all but its last two lines, the first of which waits. -/
def inOrder : State :=
  asked { holding open1 with taps := { begun.taps with contexts := begun.taps.contexts.set 0 (some context1) } }
    (writeOf 1 0x82803FF80 fullMask)

/-- That context while the Focus Unit accumulates the still-check range of zone 0, the next line being l. -/
def stillContext (l : Nat) : TapContext :=
  { context1 with next := l, range := some 0, still := some { zone := 0, sums := ⟨.replicate 32 0, .replicate 32 0⟩ } }

/-- A CAPTURE write to line l of window 5. -/
def line5 (l : Nat) (mask : BitVec 64) : Request := writeOf 1 (BitVec.ofNat 36 (0x828000000 + 64 * l)) mask

/-- A job of the given kind for the shot in window w. -/
def jobOf (w : Fin 64) (k : JobKind) : Job :=
  { window := w, seq := 1, kind := k, set := none, nextRow := 0, begun := false, saved := none }

/-- The shot x in window 5 with its context, m lines of another shot in the tap FIFO, and the engine replaying the first of the
given jobs under a focus setup in force. -/
def readout (x : Shot) (c : TapContext) (m : Nat) (jobs : List Job) : State :=
  { holding x with
    focus := viewing.focus
    taps := { contexts := begun.taps.contexts.set 0 (some c), fifo := List.replicate m { window := 7, line := 0, data := [] } }
    engine := { begun.engine with activity := .replay, queue := jobs } }

/-- Lines of window 5: the last but one of the still-check range and the last; one that takes the last place of the FIFO; one that
finds none, with a place in the replay queue and without; and out of order or with a partial mask, one of a shot that is INLINE, with
and without that place, and of one that is not, without a job and with one. -/
def readouts : List (State × TapContext × Nat × BitVec 64) :=
  let fed := { context1 with inlineFeed := true }
  let fed1 := { open1 with dev := .inline }
  let jobs := fun n => List.replicate n (jobOf 9 .check)
  [(readout open1 (stillContext 838) 0 [], stillContext 838, 838, fullMask),
    (readout open1 (stillContext 839) 0 [], stillContext 839, 839, fullMask),
    (readout fed1 fed 127 [], fed, 4094, fullMask), (readout fed1 fed 128 (jobs 15), fed, 4094, fullMask),
    (readout fed1 fed 128 (jobs 16), fed, 4094, fullMask), (readout fed1 fed 3 (jobs 15), fed, 4093, fullMask),
    (readout fed1 fed 3 (jobs 16), fed, 4094, 1), (readout open1 context1 0 (jobs 15), context1, 0, fullMask),
    (readout open1 context1 0 [jobOf 5 .check], context1, 4094, 0)]

theorem witness_InOrderLineAdvancesTap :
    MemoryCanonical inOrder ∧ (∀ x c m jobs l mask,
      TakesWrite (asked (readout x c m jobs) (line5 l mask)) (line5 l mask) [] (List.replicate 64 7) mask) ∧
    ¬endsStillRange prof context1 4094 ∧ ¬endsStillRange prof (stillContext 838) 838 ∧
    TakesWrite inOrder (writeOf 1 0x82803FF80 fullMask) [] (List.replicate 64 7) fullMask ∧
    classify (lineAddr (writeOf 1 0x82803FF80 fullMask)) = .shot 5 262016 ∧ contextOf inOrder 5 = some context1 ∧
    (∀ q ∈ readouts, classify (lineAddr (line5 q.2.2.1 q.2.2.2)) = .shot 5 (64 * q.2.2.1) ∧
      sourceClass (line5 q.2.2.1 q.2.2.2).tag = .capture ∧ (q.1.shot 5).state = .capturing ∧
      (q.1.shot 5).profile = some prof ∧ 64 * q.2.2.1 + 64 < (q.1.shot 5).rawLength ∧
      q.1.rawEntry 5 (64 * q.2.2.1 / Config.granule) = some 2048 ∧ contextOf q.1 5 = some q.2.1 ∧
      q.2.1.following = true ∧ q.1.engine.activity = .replay ∧ q.1.focus.setup = some setup) ∧
    (readouts.map fun q => decide (q.2.2.2 = fullMask ∧ q.2.1.next = q.2.2.1)) =
      [true, true, true, true, true, false, false, false, false] ∧
    stillLine prof 0 838 = true ∧ stillLine prof 0 839 = true ∧ lastStillLine prof 0 = some 839 ∧
    (stillContext 839).inlineFeed = false ∧
    (readouts.map fun q => (q.1.taps.fifo.length, q.1.engine.queue.length, hasJob q.1 5, q.2.1.inlineFeed)) =
      [(0, 0, false, false), (0, 0, false, false), (127, 0, false, true), (128, 15, false, true), (128, 16, false, true),
        (3, 15, false, true), (3, 16, false, true), (0, 15, false, false), (0, 1, true, false)] ∧
    open1.crc = none ∧ open1.dev = .none := by
  refine ⟨rfl, fun _ _ _ _ _ _ => write_taken, ?_, ?_, write_taken, by decide +kernel⟩
  · rintro ⟨_, _, h, _⟩
    cases h
  · rintro ⟨_, _, h, _, _, l⟩
    cases h
    revert l
    decide +kernel

/-- A state with the raw entry of window 5 still empty. -/
def unmappedRaw (s : State) : State := { s with maps := s.maps.set 5 { s.mapsOf 5 with raw := emptyMaps.raw } }

/-- The lines of `readouts`, and one at a context that no longer follows, may each be the first of their granule. -/
theorem witness_EmptyRawEntry :
    (∀ s : State, s.phase = .started → s.port.pass = [] → ∀ l mask,
      TakesWrite (asked (unmappedRaw s) (line5 l mask)) (line5 l mask) [] (List.replicate 64 7) mask) ∧
    (∀ q ∈ readouts, MemoryCanonical (unmappedRaw q.1) ∧ ((unmappedRaw q.1).mapsOf 5).raw[0]? = some none ∧
      (unmappedRaw q.1).pool.free = 2050 :: (List.range 5).map (fun i => 2051 + i) ∧
      ((unmappedRaw q.1).shot 5).reservation = 0 + 1) ∧
    contextOf (readout open1 { context1 with following := false } 0 []) 5 = some { context1 with following := false } := by
  refine ⟨fun s h k l mask => write_taken (s := unmappedRaw s) ⟨h, k, rfl⟩, ?_, by decide +kernel⟩
  intro q h
  refine ⟨?_, ?_⟩
  · revert q
    unfold MemoryCanonical
    decide +kernel
  · revert q
    decide +kernel

/-- The first line of the declared view buffer. -/
def viewLine0 : Request := writeOf 1 0x004000000 fullMask

/-- `viewing` with the banks in the given states and the given view followed. -/
def banked (a b : BankState) (v : Option Followed) : State :=
  { viewing with
    focus := { viewing.focus with bankA := { idleBank with state := a }, bankB := { idleBank with state := b } }
    view := { viewing.view with followed := v } }

/-- A CAPTURE write to line l of the declared view buffer. -/
def viewLineAt (l : Nat) (mask : BitVec 64) : Request := writeOf 1 (BitVec.ofNat 36 (0x004000000 + 64 * l)) mask

/-- A first line with bank A free, with bank B alone free, and with none free; a followed view's next line, its last grid line with
the other bank MEASURING and not, and a line out of order; and a line of no followed view. -/
theorem witness_ViewStartFollowsInBankA :
    TakesWrite (asked viewing viewLine0) viewLine0 [] (List.replicate 64 7) fullMask ∧
    classify (lineAddr viewLine0) = .plain ∧ plainCheck (asked viewing viewLine0) (lineAddr viewLine0) = none ∧
    sourceClass viewLine0.tag = .capture ∧ (asked viewing viewLine0).focus.setup = some setup ∧
    viewLineOf setup (lineAddr viewLine0) = some (0, 0) ∧ viewing.view.followed = none ∧ viewing.focus.bankA.state = .idle ∧
    lastGridLineOf setup = 3919 ∧ viewLineOf setup (lineAddr (viewLineAt 3919 fullMask)) = some (0, 3919) ∧
    viewLineOf setup (lineAddr (viewLineAt 3918 1)) = some (0, 3918) ∧
    plainCheck viewing (lineAddr (viewLineAt 3919 fullMask)) = none ∧
    (banked .measuring .idle none).focus.bankB.state = .idle ∧
    (banked .measuring .full none).view.followed.map Followed.bank = none ∧
    (banked .accumulating .idle (some { buffer := 0, next := 3919, bank := .a })).view.followed.map Followed.bank = some .a ∧
    ((banked .measuring .accumulating (some { buffer := 0, next := 3919, bank := .b })).bank BankId.b.other).state = .measuring ∧
    ((banked .accumulating .idle (some { buffer := 0, next := 3919, bank := .a })).bank BankId.a.other).state ≠ .measuring := by
  refine ⟨write_taken, ?_⟩
  decide +kernel

/-- The 64 bytes of an order record with the given code and staging offset. -/
def recordBytes (code staging : Nat) : List Byte :=
  padTo 64 ([BitVec.ofNat 8 code, 1] ++ leBytes 2 7 ++ [0, 5] ++ leBytes 2 staging ++ leBytes 4 1)

/-- An entry of the internal-read queue that has returned. -/
def returned (p : ReadPurpose) (data : List Byte) : ReadEntry := { purpose := p, addr := 0, data := data, entry := 0, wait := 0 }

/-- A state in which the record of the order in progress has returned. -/
def fetched (bytes : List Byte) : State :=
  { begun with
    order := { post := 1, taken := 0, phase := .fetching }
    port := { begun.port with readFlight := [returned .orderRecord bytes] } }

/-- A write to a watched word of the control area with the given mask. -/
def watched (at_ : BitVec 36) (mask : BitVec 64) : Request :=
  { tag := 0, txn := 0, addr := 0x100000 + at_, kind := .write (List.replicate 64 7) mask }

theorem witness_PostIndexWriteReachesOrderUnit :
    TakesWrite (asked begun (watched 0x1000 0xF)) (watched 0x1000 0xF) [] (List.replicate 64 7) 0xF ∧
    TakesWrite (asked begun (watched 0x1000 0x7)) (watched 0x1000 0x7) [] (List.replicate 64 7) 0x7 ∧
    lineAddr (watched 0x1000 0xF) = controlBase begun.caSel + Config.postIndexAt ∧
    plainCheck begun (lineAddr (watched 0x1000 0xF)) = none ∧ sourceClass (watched 0x1000 0xF).tag = .processor ∧
    wordMasked 0xF = true ∧ wordMasked 0x7 = false ∧
    begun.order.phase = .idle ∧ 0 < (field (List.replicate 64 7) 0 4 % 64 + 64 - begun.order.taken) % 64 ∧
    begun.port.heldReads = [] ∧ begun.port.reads.length < 16 ∧ (fetched []).order.phase ≠ .idle ∧
    (field (List.replicate 64 7) 0 4 % 64 + 64 - 7) % 64 = 0 :=
  ⟨write_taken, write_taken, by decide +kernel⟩

/-- `begun` with seven notices unconsumed, and the given number dropped. -/
def noticed (dropped : Nat) : State :=
  { begun with notice := { begun.notice with
      writeIndex := 7, number := 7, overflow := dropped, unconsumed := List.replicate 7 { time := 0, urgent := false } } }

/-- The data of `watched` is 0x07070707, whose span from consumed index 0 is exactly 7. A ring of 255 unconsumed notices keeps them
all when its own consumed index is written; with 254 left and drops counted the report finds the last place; and in the last state
a line of the part waits. -/
theorem witness_ConsumedIndexWriteConsumes :
    TakesWrite (asked (noticed 0) (watched 0x1040 0xF)) (watched 0x1040 0xF) [] (List.replicate 64 7) 0xF ∧
    lineAddr (watched 0x1040 0xF) = controlBase begun.caSel + Config.consumedIndexAt ∧
    plainCheck (noticed 0) (lineAddr (watched 0x1040 0xF)) = none ∧ sourceClass (watched 0x1040 0xF).tag = .processor ∧
    wordMasked 0xF = true ∧
    consumedSpan (noticed 0) (field (List.replicate 64 7) 0 4) = unconsumedCount (noticed 0) ∧
    unconsumedCount begun < consumedSpan begun (field (List.replicate 64 7) 0 4) ∧
    (noticed 0).notice.overflow = 0 ∧ 0 < (noticed 3).notice.overflow ∧
    ((noticed 3).notice.writeIndex + 256 - field (List.replicate 64 7) 0 4 % 256) % 256 < 255 ∧
    (noticed 3).port.work = [] ∧ (noticed 3).port.writes.length + 2 ≤ 32 ∧ (noticed 3).mem.wf = true ∧
    (6 + 256 - field (List.replicate 64 7) 0 4 % 256) % 256 = 255 ∧
    (5 + 256 - field (List.replicate 64 7) 0 4 % 256) % 256 = 254 ∧
    ({ noticed 3 with port := { (noticed 3).port with work := [.line (.cursor 8)] } } : State).port.work ≠ [] :=
  ⟨write_taken, by decide +kernel⟩

theorem witness_PlainReadEntersMemoryPath :
    TakesRead (asked begun (readOf 4 0x3FFFFFFC0)) (readOf 4 0x3FFFFFFC0) [] ∧
    classify (lineAddr (readOf 4 0x3FFFFFFC0)) = .plain ∧
    plainCheck (asked begun (readOf 4 0x3FFFFFFC0)) (lineAddr (readOf 4 0x3FFFFFFC0)) = none :=
  ⟨read_taken, by decide +kernel⟩

theorem witness_AbortedPlainReadAnswered :
    TakesRead (asked begun (readOf 6 0xB00000000)) (readOf 6 0xB00000000) [] ∧
    TakesRead (asked begun (readOf 0 0x400000000)) (readOf 0 0x400000000) [] ∧
    TakesRead (asked begun (readOf 0 0x080000000)) (readOf 0 0x080000000) [] ∧
    classify (lineAddr (readOf 6 0xB00000000)) = .unassigned ∧ classify (lineAddr (readOf 0 0x400000000)) = .plain ∧
    plainCheck (asked begun (readOf 0 0x400000000)) (lineAddr (readOf 0 0x400000000)) = some .noMemory ∧
    plainCheck (asked begun (readOf 0 0x080000000)) (lineAddr (readOf 0 0x080000000)) = some .poolFence :=
  ⟨read_taken, read_taken, read_taken, by decide +kernel⟩

/-- Reads of window 5: the raw line behind the last, and the preview line behind the last. -/
theorem witness_AbortedShotReadAnswered :
    TakesRead (asked begun (readOf 0 0x828000000)) (readOf 0 0x828000000) [] ∧
    TakesRead (asked (holding sealed1) (readOf 0 0x828040000)) (readOf 0 0x828040000) [] ∧
    TakesRead (asked (holding sealed1) (readOf 0 0xA14008000)) (readOf 0 0xA14008000) [] ∧
    classify (lineAddr (readOf 0 0x828040000)) = .shot 5 262144 ∧ classify (lineAddr (readOf 0 0xA14008000)) = .preview 5 32768 ∧
    (begun.shot 5).state = .free ∧ ((holding open1).shot 5).state = .capturing ∧ ((holding sealed1).shot 5).state = .sealed ∧
    ((holding sealed1).shot 5).rawLength = 262144 ∧ ((holding sealed1).shot 5).previewLength = 32768 ∧
    ((holding sealed1).shot 5).dev = .done ∧ ((holding { sealed1 with dev := .failed }).shot 5).dev ≠ .done ∧
    [0, 1, 2, 3, 4, 5].map sourceClass = [.processor, .capture, .card, .tether, .display, .other] := by
  refine ⟨read_taken, read_taken, read_taken, ?_⟩
  decide +kernel

/-- A read of window 5 of shot space. -/
def shotRead5 (tag : BitVec 3) (o : BitVec 36) : Request := readOf tag (0x828000000 + o)

theorem witness_SealedShotReadServed :
    (TakesRead (asked (holding sealed1) (shotRead5 4 0x3FFC0)) (shotRead5 4 0x3FFC0) [] ∧
      TakesRead (asked (holding sealed1) (readOf 0 0xA14007FC0)) (readOf 0 0xA14007FC0) [] ∧
      TakesRead (asked (holding sealed1) (readOf 2 0xA14007FC0)) (readOf 2 0xA14007FC0) [] ∧
      TakesRead (asked (holding open1) (shotRead5 1 0x3FFC0)) (shotRead5 1 0x3FFC0) []) ∧
    ((holding sealed1).shot 5).state = .sealed ∧ sourceClass (shotRead5 4 0x3FFC0).tag = .display ∧
    classify (lineAddr (shotRead5 4 0x3FFC0)) = .shot 5 0x3FFC0 ∧ 0x3FFC0 < ((holding sealed1).shot 5).rawLength ∧
    (holding sealed1).rawEntry 5 (0x3FFC0 / Config.granule) = some 2048 ∧
    sourceClass (readOf 0 0xA14007FC0).tag = .processor ∧ classify (lineAddr (readOf 0 0xA14007FC0)) = .preview 5 0x7FC0 ∧
    ((holding sealed1).shot 5).dev = .done ∧ 0x7FC0 < ((holding sealed1).shot 5).previewLength ∧
    (holding sealed1).previewEntry 5 (0x7FC0 / Config.granule) = some 2049 ∧ sourceClass (readOf 2 0xA14007FC0).tag = .card ∧
    ((holding open1).shot 5).state = .capturing ∧ sourceClass (shotRead5 1 0x3FFC0).tag = .capture ∧
    0x3FFC0 < ((holding open1).shot 5).rawLength := by
  refine ⟨⟨read_taken, read_taken, read_taken, read_taken⟩, ?_⟩
  decide +kernel

/-- A verify pass of the shot in window 5 that has accepted the given lines and waits for their data; line n is the next. -/
def passOf (n : Nat) (lines : List Nat) : VerifyContext :=
  { window := 5, seq := 1, pass := 7, next := n, crc := crcInit, accepted := lines.map fun l => { line := l, data := none } }

/-- The shot in window 5 is READING with a verify pass in context 2 that waits for line n, its granules mapped or not. -/
def cardReading (n : Nat) (mapped : Bool) : State :=
  let s := holding { sealed1 with card := .reading, verify := .running }
  { s with
    maps := if mapped then s.maps else begun.maps
    verify := { contexts := s.verify.contexts.set 2 (some (passOf n [])), nextPass := 8 } }

/-- A card read of line l of window 5. -/
def cardRead (l : Nat) : Request := shotRead5 2 (BitVec.ofNat 36 (64 * l))

/-- The start of a pass with its CRC and without, a read elsewhere, the next expected line of a pass and another, and from empty
entries a read without a pass and the next expected line of one. -/
theorem witness_CardReadCounted :
    (∀ (x : Shot) (l : Nat), TakesRead (asked (holding x) (cardRead l)) (cardRead l) []) ∧
    (∀ n l, TakesRead (asked (cardReading n true) (cardRead l)) (cardRead l) [] ∧
      TakesRead (asked (cardReading n false) (cardRead l)) (cardRead l) []) ∧
    TakesRead (asked { holding sealed1 with maps := begun.maps } (cardRead 1)) (cardRead 1) [] ∧
    (∀ l ∈ [0, 1, 4095], classify (lineAddr (cardRead l)) = .shot 5 (64 * l)) ∧ sourceClass (cardRead 0).tag = .card ∧
    (∀ s ∈ [holding sealed1, holding { sealed1 with crc := none }, cardReading 1 true],
      (s.shot 5).state = .sealed ∧ 64 * 4095 < (s.shot 5).rawLength ∧ s.rawEntry 5 (64 * 4095 / Config.granule) = some 2048) ∧
    verifyOf (holding sealed1) 5 = none ∧ (freeContext (holding sealed1)).isSome = true ∧ sealed1.card = .pending ∧
    sealed1.crc.isSome = true ∧ verifyOf (cardReading 1 true) 5 = some (passOf 1 []) ∧
    (passOf 1 []).next = 64 * 1 / 64 ∧ (passOf 1 []).next ≠ 64 * 0 / 64 ∧ (passOf 1 []).accepted = [] ∧
    verifyOf (cardReading 1 false) 5 = some (passOf 1 []) ∧ ((cardReading 1 false).shot 5).card = .reading ∧
    (cardReading 1 false).rawEntry 5 (64 * 1 / Config.granule) = none ∧ 64 * 1 + 64 ≠ sealed1.rawLength ∧
    (∀ i, i ≠ 2 → (cardReading 1 false).verify.contexts.get i = none) ∧
    verifyOf { holding sealed1 with maps := begun.maps } 5 = none ∧ begun.rawEntry 5 0 = none :=
  ⟨fun _ _ => read_taken, fun _ _ => ⟨read_taken, read_taken⟩, read_taken, by decide +kernel⟩

/-- A SEALED shot in window 5 that waits in the tether queue. -/
def queuedShot : State := holding { sealed1 with tether := .queued }

theorem witness_TetherReadCounted :
    (TakesRead (asked queuedShot (shotRead5 3 0x3FFC0)) (shotRead5 3 0x3FFC0) [] ∧
      TakesRead (asked queuedShot (readOf 3 0xA14007FC0)) (readOf 3 0xA14007FC0) []) ∧
    classify (lineAddr (shotRead5 3 0x3FFC0)) = .shot 5 0x3FFC0 ∧ sourceClass (shotRead5 3 0x3FFC0).tag = .tether ∧
    (queuedShot.shot 5).state = .sealed ∧ 0x3FFC0 < (queuedShot.shot 5).rawLength ∧ sendingCount queuedShot < 4 ∧
    queuedShot.rawEntry 5 (0x3FFC0 / Config.granule) = some 2048 ∧
    classify (lineAddr (readOf 3 0xA14007FC0)) = .preview 5 0x7FC0 ∧ sourceClass (readOf 3 0xA14007FC0).tag = .tether ∧
    (queuedShot.shot 5).dev = .done ∧ 0x7FC0 < (queuedShot.shot 5).previewLength ∧
    begun.previewEntry 5 (0x7FC0 / Config.granule) = none :=
  ⟨⟨read_taken, read_taken⟩, by decide +kernel⟩

/-! ### Witnesses: the Memory Port -/

/-- An inserted write and an internal read with the given times of entry and wait counts, behind a pass-through write. -/
def ported (we ww re rw_ : Nat) (pass : List PassEntry) : State :=
  { begun with port := { begun.port with
      pass := pass
      writes := [{ addr := 64, data := [], mask := 0, entry := we, wait := ww }]
      reads := [{ purpose := .replay, addr := 128, data := [], entry := re, wait := rw_ }] } }

/-- A pass-through write. -/
def passing : PassEntry := { addr := 0, kind := .write [] 0, entry := 0 }

/-- A pass-through read. -/
def readPassing : PassEntry :=
  { addr := 0, kind := .read { txn := 3, data := [], respond := true, accepted := none }, entry := 0 }

theorem witness_ArbiterGrantsByRule :
    (∀ x, (ported 1 8 2 8 []).port.writes.head? = some x → 8 ≤ x.wait) ∧
    (∀ x, (ported 1 8 2 8 []).port.writes.head? = some x →
      ∀ y, (ported 1 8 2 8 []).port.reads.head? = some y → 8 ≤ y.wait → x.entry < y.entry) ∧
    (∀ y, (ported 2 8 1 8 []).port.reads.head? = some y → 8 ≤ y.wait) ∧
    (∀ y, (ported 2 8 1 8 []).port.reads.head? = some y →
      ∀ x, (ported 2 8 1 8 []).port.writes.head? = some x → 8 ≤ x.wait → y.entry ≤ x.entry) ∧
    (∀ x, (ported 1 7 2 7 [passing]).port.writes.head? = some x → x.wait < 8) ∧
    (∀ y, (ported 1 7 2 7 [passing]).port.reads.head? = some y → y.wait < 8) ∧
    (ported 1 7 2 7 [passing]).port.pass = passing :: [] ∧ (ported 1 7 2 7 []).port.pass = [] ∧
    passing.kind = .write [] 0 ∧ readPassing.kind = .read { txn := 3, data := [], respond := true, accepted := none } ∧
    (∀ e more, (ported 1 7 2 7 []).port.reads = e :: more → e.purpose ≠ .dropped) := by
  refine ⟨?_, ?_, ?_, ?_, ?_, ?_, rfl, rfl, rfl, rfl, ?_⟩
  · intro x h; cases h; decide
  · intro x h y k _; cases h; cases k; decide
  · intro y h; cases h; decide
  · intro y h x k _; cases h; cases k; decide
  · intro x h; cases h; decide
  · intro y h; cases h; decide
  · intro e more h; cases h; decide

theorem witness_HeldRequestEnters :
    ({ begun with port := { begun.port with heldReads := [(.staging, 64)] } } : State).port.heldReads = (.staging, 64) :: [] ∧
    ({ begun with port := { begun.port with heldReads := [(.staging, 64)] } } : State).port.reads.length < 16 ∧
    ({ begun with port := { begun.port with work := [.line (.cursor 8)] } } : State).port.work = [.line (.cursor 8)] ∧
    ({ begun with port := { begun.port with work := [.line (.cursor 8)] } } : State).port.writes.length < 32 ∧
    begun.engine.run.rowWaits = false := by decide +kernel

/-- Two reads in flight, the second silenced by a link reset. -/
def inFlight : State :=
  { begun with
    port := { begun.port with passFlight :=
      [{ txn := 1, data := List.replicate 64 3, respond := true, accepted := none },
       { txn := 2, data := List.replicate 64 4, respond := false, accepted := none }] }
    link := { begun.link with ready := [{ txn := 0, data := List.replicate 64 1, ok := true }] } }

/-- The data of line l of that pass, with the pass in context 2. -/
def verifying (n : Nat) (lines : List Nat) (l : Nat) : State :=
  let s := holding { sealed1 with card := .reading, verify := .running }
  { s with
    port := { s.port with
      passFlight := [{ txn := 1, data := List.replicate 64 3, respond := true, accepted := some (7, l) }] }
    verify := { contexts := s.verify.contexts.set 2 (some (passOf n lines)), nextPass := 8 } }

/-- Data of a line behind another, of the first of two, and of the final line, 4095, for whose end the shot's CRC decides. -/
theorem witness_ResponsesReturn :
    (∀ n lines l, ((verifying n lines l).port.passFlight[0]?).map PassRead.accepted = some (some (7, l)) ∧
      (verifying n lines l).verify.contexts.get 2 = some (passOf n lines)) ∧
    (inFlight.port.passFlight[0]?).map PassRead.accepted = some none ∧
    (inFlight.port.passFlight[0]?).map PassRead.respond = some true ∧
    (inFlight.port.passFlight[1]?).map PassRead.accepted = some none ∧
    (inFlight.port.passFlight[1]?).map PassRead.respond = some false ∧
    inFlight.link.ready = { txn := 0, data := List.replicate 64 1, ok := true } :: [] ∧
    (∀ j, j ≠ 2 → (verifying 4096 [4095] 4095).verify.contexts.get j = none) ∧
    (passOf 4096 [4094, 4095]).accepted = { line := 4094, data := none } :: [{ line := 4095, data := none }] ∧
    (passOf 4096 [4095]).accepted = { line := 4095, data := none } :: [] ∧
    (passOf 4096 [4095]).next * 64 = ((verifying 4096 [4095] 4095).shot 5).rawLength ∧
    ((verifying 4096 [4095] 4095).shot 5).crc = some (0x12345678, .inline) ∧
    crcFinish (crcBytes crcInit (List.replicate 64 3)) ≠ 0x12345678 := by
  exact ⟨fun _ _ _ => ⟨rfl, rfl⟩, by decide +kernel⟩

/-! ### Witnesses: orders and notices -/

/-- A SEAL, an UNKNOWN order, and SET PROFILE with its image at the end of the staging area and beyond it. -/
theorem witness_OrdersAreDispatched :
    (fetched (recordBytes 0x04 0)).order.phase = .fetching ∧
    returnedReads (fetched (recordBytes 0x04 0)) .orderRecord = returned .orderRecord (recordBytes 0x04 0) :: [] ∧
    (orderKind (decodeOrder (recordBytes 0x04 0)).code).bind OrderKind.imageLength = none ∧
    (orderKind (decodeOrder (recordBytes 0x02 0xFF00)).code).bind OrderKind.imageLength = some 256 ∧
    stagingFits (decodeOrder (recordBytes 0x02 0xFF00)) 256 = true ∧
    stagingFits (decodeOrder (recordBytes 0x02 0xFF40)) 256 = false ∧
    readsWaiting { begun with order := { post := 1, taken := 0, phase := .imageFetch (orderOf 0x02 [0]) } } .staging = false ∧
    (handed begun 0x14 [] []).order.phase = .dispatched (orderOf 0x14 []) [] ∧ orderKind (orderOf 0x14 []).code = none ∧
    orderKind 0x13 = some .setNotice := by decide +kernel

/-- `begun` with n inserted writes that wait for a grant and the notice write index at k. -/
def crowded (n k : Nat) : State :=
  { begun with
    port := { begun.port with writes := List.replicate n { addr := 64, data := [], mask := 0, entry := 0, wait := 0 } }
    notice := { begun.notice with writeIndex := k } }

/-- `crowded 31 0`, which has one place free, with work that waits. -/
def waitingFor (ws : List OwnWork) : State :=
  { crowded 31 0 with port := { (crowded 31 0).port with work := ws } }

/-- A notice about the shot in window 5, and one about no shot. -/
def sealNotice : Notice := shotNotice begun 5 .shotSealed 0 []
def lensNotice : Notice := plainNotice .lensReply 1 []

/-- R46, R56: with a mirror line and its notice held, another block's notice takes its place at once, before a later line; the mirror
line enters, and then its notice is handed over, behind both. -/
theorem test_held_notice_takes_place_when_its_line_is_in :
    (enterHeldWrite (emitLine (hand (waitingFor [.line (.mirror 5 0), .notice sealNotice .waits]) lensNotice)
      (.zone 1))).port.work = [.notice lensNotice .handed, .line (.zone 1), .notice sealNotice .handed] := by
  decide +kernel

/-- R169: the status byte of an order waits for the order's own notice, and for no other. -/
theorem test_status_byte_waits_for_own_notice :
    ((joinWork (waitingFor [.line (.mirror 5 0), .notice sealNotice .owed]) (.orderStatus .done false)).port.work.getLast? =
      some (.orderStatus .done false)) ∧
    ((joinWork (waitingFor [.line (.mirror 5 0), .notice sealNotice .waits]) (.orderStatus .done false)).port.work.getLast? =
      some (.orderStatus .done true)) := by
  decide +kernel

theorem witness_OrderCompletes :
    MemoryCanonical (crowded 28 254) ∧ IndicesInRange (crowded 28 254) ∧ (crowded 28 254).port.work = [] ∧
    (crowded 28 254).port.writes.length + 4 ≤ 32 ∧ (orderOf 4 []).notify = true ∧ unconsumedCount (crowded 28 254) < 255 ∧
    ({ orderOf 4 [] with notify := false } : OrderRecord).notify = false :=
  ⟨rfl, by constructor <;> decide +kernel, by decide +kernel⟩

theorem witness_LineWrittenBack :
    MemoryCanonical (crowded 31 0) ∧ (crowded 31 0).port.work = [] ∧ (crowded 31 0).port.writes.length < 32 ∧
    (ownLineWrite (crowded 31 0) (.cursor 8)).2.2.getLsbD 63 = true :=
  ⟨rfl, by decide +kernel⟩

theorem witness_NoticeWrittenOrDropped :
    (MemoryCanonical (crowded 30 254) ∧ IndicesInRange (crowded 30 254) ∧ unconsumedCount (crowded 30 254) < 255) ∧
    (MemoryCanonical (crowded 30 255) ∧ IndicesInRange (crowded 30 255) ∧ unconsumedCount (crowded 30 255) = 255) ∧
    (crowded 30 254).port.work = [] ∧ (crowded 30 254).port.writes.length + 2 ≤ 32 ∧ (crowded 30 255).port.work = [] ∧
    (crowded 30 255).port.writes.length + 2 ≤ 32 ∧ (crowded 30 254).notice.mode = .level ∧
    (startedNotice begun).fault = none ∧ ({ startedNotice begun with fault := some .card } : Notice).fault = some .card := by
  refine ⟨⟨rfl, ?_, by decide +kernel⟩, ⟨rfl, ?_, by decide +kernel⟩, by decide +kernel⟩ <;> constructor <;> decide +kernel

/-- `crowded 30 254` in PULSE mode, with the condition standing or not. -/
def pulsing (standing : Bool) : State :=
  let s := crowded 30 254
  { s with notice := { s.notice with mode := .pulse, standing := standing } }

/-- 255 notices unconsumed make the condition stand, and a batch of 256 is not reached. -/
theorem witness_NoticeInPulseMode :
    (pulsing false).notice.mode = .pulse ∧ (pulsing false).notice.standing = false ∧ (pulsing false).notice.pulse = .stopped ∧
    attentionCondition (hand (pulsing false) lensNotice) = true ∧ (pulsing true).notice.standing = true := by
  decide +kernel

/-- A state in which an order naming the given window and sequence number has been handed over. -/
def naming (s : State) (code window seq : Nat) : State :=
  { s with order := { post := 1, taken := 0, phase := .dispatched { orderOf code [] with window := window, seq := seq } [] } }

theorem witness_OrderNamingNoShotRefused :
    (∀ p ∈ [(0x04, OrderKind.seal), (0x05, .discard), (0x06, .protect), (0x07, .unprotect), (0x08, .rate), (0x0D, .redevelop),
        (0x0E, .cardDone), (0x0F, .cardRetry), (0x11, .tetherDone), (0x12, .sendNow)],
      dispatchedOrder (naming begun p.1 64 1) p.2 = some ({ orderOf p.1 [] with window := 64 }, []) ∧
      dispatchedOrder (naming begun p.1 63 1) p.2 = some ({ orderOf p.1 [] with window := 63 }, []) ∧
      dispatchedOrder (naming (holding sealed1) p.1 5 2) p.2 = some ({ orderOf p.1 [] with seq := 2 }, [])) ∧
    ((naming begun 4 63 1).shot 63).state = .free ∧ ((naming (holding sealed1) 4 5 2).shot 5).seq ≠ 2 := by decide +kernel

/-! ### Witnesses: pool, profiles and the life of a shot -/

/-- The parameters of SET POOL. -/
def poolParams (first count low high : Nat) (marks : Byte) : List Byte :=
  leBytes 2 first ++ leBytes 2 count ++ leBytes 2 low ++ leBytes 2 high ++ [marks]

/-- The largest pool, ending with the 16 GiB, and one granule too many. -/
theorem witness_SetPoolReplacesPool :
    dispatchedOrder (handed begun 1 (poolParams 8192 8192 0 8192 0) []) .setPool =
      some (orderOf 1 (poolParams 8192 8192 0 8192 0), []) ∧
    marksOnly (orderOf 1 (poolParams 8192 8192 0 8192 0)) = false ∧
    poolParamsValid begun 8192 8192 0 8192 = true ∧ poolParamsValid begun 8193 8192 0 8192 = false ∧
    poolParamsValid begun 1 8 0 8 = false ∧ (∀ w, begun.shot w = freeShot) ∧
    poolParamsValid (holding sealed1) 2 8 0 8 = true ∧ ((holding sealed1).shot 5).state ≠ .free := by decide +kernel

theorem witness_SetPoolMarksOnlyRule :
    dispatchedOrder (handed (holding open1) 1 (poolParams 0 0 6 8 1) []) .setPool =
      some (orderOf 1 (poolParams 0 0 6 8 1), []) ∧
    marksOnly (orderOf 1 (poolParams 0 0 6 8 1)) = true ∧ (holding open1).pool.size = 8 ∧
    available (handed (holding open1) 1 (poolParams 0 0 6 8 1) []) = 5 ∧ (holding open1).pool.armed = true := by
  decide +kernel

theorem witness_SetProfileReplacesSlot :
    dispatchedOrder (handed begun 2 [3] (profileImage prof)) .setProfile = some (orderOf 2 [3], profileImage prof) ∧
    dispatchedOrder (handed begun 2 [4] []) .setProfile = some (orderOf 2 [4], []) ∧
    decodeProfile (profileImage prof) = some prof ∧ decodeProfile (List.replicate 256 0) = none ∧
    field (orderOf 2 [3]).params 0 1 = 3 ∧ field (orderOf 2 [4]).params 0 1 = 4 ∧ field (orderOf 2 [0]).params 0 1 = 0 ∧
    begun.table.active = 0 := by decide +kernel

theorem witness_SelectProfileMakesActive :
    dispatchedOrder (handed begun 3 [0] []) .selectProfile = some (orderOf 3 [0], []) ∧
    begun.table.profiles.get 0 = some prof ∧ begun.table.profiles.get 3 = none ∧ field (orderOf 3 [0]).params 0 1 = 0 := by
  decide +kernel

/-- A state whose engine runs the inline job of window 7, with n CHECK jobs queued. -/
def busyWith (s : State) (n : Nat) : State :=
  { s with engine := { s.engine with
      activity := .inline 7
      queue := List.replicate n
        { window := 9, seq := 1, kind := .check, set := none, nextRow := 0, begun := false, saved := none } } }

/-- The last line of the shot in window 5 waits, behind all the others or (disordered) on its own. -/
def lastLine (following : Bool) : State :=
  asked { holding open1 with taps := { begun.taps with
      contexts := begun.taps.contexts.set 0 (some { context1 with next := 4095, following := following }) } }
    (writeOf 1 0x82803FFC0 fullMask)

/-- A disordered shot that nothing but its capture keeps. -/
def loose : Shot :=
  { open1 with
    copy := some { slot := 0, profile := { prof with cardRequired := false, tetherEvaluated := false } }
    tapStatus := .disordered }

theorem witness_SealLeavesShotSealed :
    Names (handed (holding open1) 4 [] []) (orderOf 4 []) 5 ∧ Names (handed (busyWith (holding loose) 0) 4 [] []) (orderOf 4 []) 5 ∧
    dispatchedOrder (handed (holding open1) 4 [] []) .seal = some (orderOf 4 [], []) ∧
    ((holding open1).shot 5).state = .capturing ∧ ((holding open1).shot 5).profile = some prof ∧ prof.cardRequired = true ∧
    ((holding open1).shot 5).timer = .running 200000 ∧ ((holding open1).shot 5).tapStatus = .inOrder ∧
    ((holding open1).shot 5).crc = none ∧ hasJob (busyWith (holding open1) 15) 5 = false ∧
    (busyWith (holding open1) 15).engine.queue.length < 16 ∧ 16 ≤ (busyWith (holding open1) 16).engine.queue.length ∧
    (busyWith (holding open1) 15).engine.activity ≠ .idle ∧ (busyWith (holding open1) 15).engine.activity ≠ .inline 5 ∧
    ((holding loose).shot 5).profile = some { prof with cardRequired := false, tetherEvaluated := false } ∧
    ((holding loose).shot 5).protect = false ∧ ((holding loose).shot 5).dev = .none ∧
    ((holding loose).shot 5).tapStatus = .disordered :=
  ⟨names _ _ _, names _ _ _, by decide +kernel⟩

theorem witness_FinalLineSeals :
    TakesWrite (lastLine true) (writeOf 1 0x82803FFC0 fullMask) [] (List.replicate 64 7) fullMask ∧
    classify (lineAddr (writeOf 1 0x82803FFC0 fullMask)) = .shot 5 262080 ∧
    262080 + 64 = ((lastLine true).shot 5).rawLength ∧ (lastLine true).rawEntry 5 (262080 / Config.granule) = some 2048 ∧
    contextOf (lastLine true) 5 = some { context1 with next := 4095 } ∧ 4095 = 262080 / 64 ∧ 4095 + 1 = prof.lines ∧
    contextOf (lastLine false) 5 = some { context1 with next := 4095, following := false } :=
  ⟨write_taken, by decide +kernel⟩

/-- A SEALED shot with the given tether status under a table whose first rule sends RAW to shots rated 5, queued with the forced mark
or without it. -/
def judged (x : Shot) (forced : Bool) : State :=
  let s := holding x
  { s with tether := { s.tether with
      rules := s.tether.rules.set 0 { enabled := true, story := none, minRating := 5, focus := .any, send := some .raw }
      queue := if x.tether = .queued then
        [{ window := 5, seq := 1, send := .raw, urgent := false, ready := true, forced := forced }] else [] } }

/-- A profile whose last line, 4095, is the last of the still-check range of zone 3. -/
def cornered : Profile := { prof with site := ⟨16, 15, 8, 0, 4⟩, grid := ⟨0, 0, 256, 128, 2, 2⟩ }

/-- The context of a shot under `cornered` that waits for its last line. -/
def corner : TapContext :=
  { context1 with next := 4095, range := some 3, still := some { zone := 3, sums := ⟨.replicate 32 0, .replicate 32 0⟩ } }

/-- The final line of an INLINE shot takes the last place of the FIFO; of another it ends the still-check range; and with a partial
mask, or out of order, it finds the engine replaying. -/
theorem witness_FinalLineReceived :
    (∀ x c m jobs mask, TakesWrite (asked (readout x c m jobs) (line5 4095 mask)) (line5 4095 mask) [] (List.replicate 64 7) mask) ∧
    classify (lineAddr (line5 4095 fullMask)) = .shot 5 (64 * 4095) ∧ 64 * 4095 + 64 = open1.rawLength ∧
    ¬endsStillRange prof { context1 with next := 4095, inlineFeed := true } (64 * 4095 / 64) ∧
    (readout { open1 with dev := .inline } { context1 with next := 4095, inlineFeed := true } 127 []).taps.fifo.length < 128 ∧
    decodeProfile (profileImage cornered) = some cornered ∧ stillLine cornered 3 4095 = true ∧
    lastStillLine cornered 3 = some 4095 ∧ cornered.cardRequired = true ∧ viewing.focus.setup = some setup ∧
    contextOf (readout open1 corner 0 []) 5 = some corner ∧ (1 : BitVec 64) ≠ fullMask ∧
    (readout open1 context1 0 []).engine.activity = .replay ∧ context1.next ≠ 64 * 4095 / 64 := by
  refine ⟨fun _ _ _ _ _ => write_taken, by decide +kernel, by decide +kernel, ?_, by decide +kernel⟩
  rintro ⟨_, _, h, _⟩
  cases h

/-- A CAPTURING shot with its focus check, rated as selected or not, is evaluated by its seal (R152); and an IDLE engine with the shot's
job at the head of its queue begins that job. -/
theorem witness_SealEvaluatesOrBegins :
    let x : Shot := { open1 with focusCheck := some { state := .inFocus, q := 0, conf := 200 }, dev := .done }
    prof.tetherEvaluated = true ∧ x.focusCheck ≠ none ∧ x.inputsPresent = true ∧
    (busyWith (judged x false) 0).engine.activity ≠ .idle ∧ (busyWith (judged x false) 0).engine.activity ≠ .inline 5 ∧
    tetherEntry (busyWith (judged x false) 0) 5 = none ∧ selected (judged x false) x = none ∧
    selected (judged x false) { x with rating := 5 } = some .raw ∧
    (holding { open1 with dev := .queued, tapStatus := .disordered }).engine.activity = .idle ∧
    (∀ v, ((holding { open1 with dev := .queued, tapStatus := .disordered }).shot v).dev ≠ .inline) ∧
    (jobOf 5 .check).window = 5 := by
  decide +kernel

/-- The shot in window 5 is REPLAYING. -/
def replaying : State :=
  let s := holding { sealed1 with dev := .replaying }
  { s with engine := { s.engine with
      activity := .replay
      queue := [{ window := 5, seq := 1, kind := .develop, set := some prof.devSet, nextRow := 0, begun := true, saved := none }] } }

/-- The DISCARDING shot in window 5 whose inline job the engine is to stop, with the given lines in the tap FIFO. -/
def stoppingInline (fifo : List FifoEntry) : State :=
  let s := holding { sealed1 with state := .discarding, dev := .inline }
  { s with
    taps := { s.taps with fifo := fifo }
    engine := { s.engine with activity := .inline 5, stop := some 5 } }

/-- The DISCARDING shot in window 5 whose CHECK job the engine is to stop, the next line of which is answered by zeros. -/
def stoppingReplay : State :=
  let s := holding { sealed1 with state := .discarding, dev := .replaying, checkOnly := true }
  { s with engine := { s.engine with
      activity := .replay, stop := some 5, replayLine := .zeros, queue := [jobOf 5 .check] } }

/-- A CAPTURING shot that is INLINE, not yet begun or begun. -/
def inlineOpen (a : Activity) : State :=
  let s := readout { open1 with dev := .inline } context1 3 []
  { s with engine := { s.engine with activity := a } }

theorem witness_DiscardReleasesShot :
    (∀ s ∈ [holding sealed1, replaying, holding { sealed1 with state := .discarding }, readout open1 context1 3 [],
        readout { sealed1 with dev := .queued } context1 0 [jobOf 9 .check, jobOf 5 .develop], inlineOpen .replay,
        inlineOpen (.inline 5)],
      (s.shot 5).state ≠ .free ∧ (s.shot 5).seq = 1 ∧
      dispatchedOrder (handed s 5 [] []) .discard = some (orderOf 5 [], [])) ∧
    Names (handed (inlineOpen (.inline 5)) 5 [] []) (orderOf 5 []) 5 ∧
    ((holding sealed1).shot 5).state = .sealed ∧ ((holding sealed1).shot 5).dev = .done ∧
    (replaying.shot 5).state = .sealed ∧ (replaying.shot 5).dev = .replaying ∧ replaying.engine.activity = .replay ∧
    ((readout open1 context1 3 []).shot 5).state = .capturing ∧ ((readout open1 context1 3 []).shot 5).dev = .none ∧
    (readout open1 context1 3 []).engine.activity = .replay ∧ ((inlineOpen .replay).shot 5).dev = .inline ∧
    ((inlineOpen .replay).shot 5).state = .capturing ∧ (inlineOpen (.inline 5)).engine.activity = .inline 5 ∧
    (∀ s ∈ [stoppingInline [], stoppingInline [{ window := 5, line := 0, data := [] }], stoppingReplay],
      s.engine.stop = some 5 ∧ s.engine.run.rowWaits = false ∧ previewWaits s = false ∧
      (∀ v, v ≠ 5 → (s.shot v).dev ≠ .inline) ∧ (s.shot 5).profile = some prof ∧ (s.shot 5).devSet = some prof.devSet) ∧
    (stoppingInline []).engine.queue = [] ∧ (0 + 1) % (2 * prof.devSet.scale * linesPerRow prof.width) ≠ 0 ∧
    stoppingReplay.engine.activity = .replay ∧ stoppingReplay.engine.queue = [jobOf 5 .check] ∧
    stoppingReplay.engine.run.still = none ∧ returnedLine stoppingReplay = some (zeroLine, stoppingReplay) :=
  ⟨by decide +kernel, names _ _ _, by decide +kernel⟩

/-- A SEALED shot that only its protect flag keeps. -/
def guarded : Shot := { sealed1 with card := .done, tether := .sent, protect := true }

theorem witness_ProtectFlagFollowsOrders :
    Names (handed (holding sealed1) 6 [] []) (orderOf 6 []) 5 ∧ Names (handed (holding sealed1) 7 [] []) (orderOf 7 []) 5 ∧
    Names (handed (holding { sealed1 with state := .discarding }) 7 [] []) (orderOf 7 []) 5 ∧
    Names (handed (holding guarded) 7 [] []) (orderOf 7 []) 5 ∧
    dispatchedOrder (handed (holding sealed1) 6 [] []) .protect = some (orderOf 6 [], []) ∧
    dispatchedOrder (handed (holding sealed1) 7 [] []) .unprotect = some (orderOf 7 [], []) ∧
    ((holding sealed1).shot 5).state = .sealed ∧
    ({ (holding sealed1).shot 5 with protect := false } : Shot).releasable = false ∧
    ({ (holding guarded).shot 5 with protect := false } : Shot).releasable = true :=
  ⟨names _ _ _, names _ _ _,
    names _ _ _, names _ _ _, by decide +kernel⟩

/-- A SEALED shot with a focus check and the given tether status. -/
def checked (st : TetherStatus) : Shot :=
  { sealed1 with
    card := .done, tether := st, sendWhat := if st = .queued then some .raw else none, rating := 5,
    focusCheck := some { state := .inFocus, q := 0, conf := 200 } }

/-- Rated 5 the shot is selected and rated 4 it is not; in both cases the values are those of the order. -/
theorem witness_RateEvaluates :
    Names (handed (judged (checked .queued) false) 8 [4] []) (orderOf 8 [4]) 5 ∧
    (∀ st ∈ [TetherStatus.undecided, .notSelected, .queued, .sending, .sent, .abandoned],
      ((judged (checked st) false).shot 5).state = .sealed ∧ ((judged (checked st) false).shot 5).tether = st ∧
      ((judged (checked st) false).shot 5).inputsPresent = true) ∧
    selected (judged (checked .undecided) false) { checked .undecided with rating := 5 } = some .raw ∧
    selected (judged (checked .undecided) false) { checked .undecided with rating := 4 } = none ∧
    ({ checked .undecided with tether := .notSelected } : Shot).releasable = true ∧
    ({ checked .undecided with tether := .notSelected, protect := true } : Shot).releasable = false ∧
    (tetherEntry (judged (checked .queued) false) 5).map TetherEntry.forced = some false ∧
    (tetherEntry (judged (checked .queued) true) 5).map TetherEntry.forced = some true ∧
    sealed1.inputsPresent = false :=
  ⟨names _ _ _, by decide +kernel⟩

/-- A SEALED shot that is not evaluated for the tether. -/
def untethered : State := holding { sealed1 with tether := .notRequired }

theorem witness_RateSetsRating :
    Names (handed untethered 8 [200, 1, 0, 1] []) (orderOf 8 [200, 1, 0, 1]) 5 ∧
    Names (handed (holding { sealed1 with state := .discarding }) 8 [5] []) (orderOf 8 [5]) 5 ∧
    dispatchedOrder (handed untethered 8 [200, 1, 0, 1] []) .rate = some (orderOf 8 [200, 1, 0, 1], []) ∧
    ((holding open1).shot 5).state = .capturing ∧ (untethered.shot 5).state = .sealed ∧
    (untethered.shot 5).tether = .notRequired ∧ untethered.tether.head = tetherHeadOf untethered :=
  ⟨names _ _ _, names _ _ _, by decide +kernel⟩

/-! ### Witnesses: focus -/

/-- A buffer in the middle of DRAM, one that ends with it, and one that ends a line too late. -/
theorem witness_SetFocusReplacesSetup :
    dispatchedOrder (handed begun 9 [] (focusImage 0x4000000)) .setFocus = some (orderOf 9 [], focusImage 0x4000000) ∧
    decodeFocus (focusImage 0x4000000) = some setup ∧ decodeFocus (List.replicate 192 0) = none ∧
    (decodeFocus (focusImage 0x3FFFC0000)).map (buffersFit begun) = some true ∧
    (decodeFocus (focusImage 0x3FFFC0040)).map (buffersFit begun) = some false ∧ buffersFit viewing setup = true ∧
    gridChange begun.focus.setup setup = true ∧ gridChange viewing.focus.setup setup = false := by decide +kernel

/-- The parameters of FOCUS START with the given mode, clear-primary flag and last byte of the candidate set. -/
def focusParams (m flag last : Byte) : List Byte := [m, flag] ++ List.replicate 7 0xFF ++ [last]

theorem witness_FocusStartSetsFollowing :
    dispatchedOrder (handed begun 0x0A (focusParams 2 1 0x7F) []) .focusStart = some (orderOf 0x0A (focusParams 2 1 0x7F), []) ∧
    followModeOf 2 = some .continuous ∧ 2 < field (focusParams 3 0 0) 0 1 ∧
    (BitVec.ofNat 64 (field (focusParams 2 1 0x7F) 2 8)).getLsbD 63 = false ∧
    (BitVec.ofNat 64 (field (focusParams 2 1 0xFF) 2 8)).getLsbD 63 = true ∧ flagAt (focusParams 2 1 0x7F) 1 = true ∧
    flagAt (focusParams 2 0 0x7F) 1 = false := by decide +kernel

/-- Bank A is MEASURING, with or without a grid change since. -/
def measuring (changed : Bool) : State :=
  { viewing with focus := { viewing.focus with
      bankA := { idleBank with state := .measuring, setup := some setup, gridChanged := changed } } }

/-- Bank A is MEASURING a view, seen from position 1000 to 1001, whose zone 0 holds the worked profiles (5.4: 5 steps), while bank B
is FULL; the Focus Unit follows in the given mode with the given lens, all eight zones being candidates. -/
def following (tol : Nat) (m : FollowMode) (l : Lens) : State :=
  { viewing with
    lens := l
    focus := { viewing.focus with
      setup := some { setup with tol := tol }, mode := m, follow := .following, candidates := 0xFF
      bankA := { idleBank with
        state := .measuring, setup := some { setup with tol := tol }, sums := idleBank.sums.set 0 workedProfiles
        atStart := some 1000, atLast := some 1001 }
      bankB := { idleBank with state := .full } } }

/-- A READY lens at position p, with no exchange. -/
def lensAt (p : Nat) : Lens := { lensed.lens with report := some { position := p, moving := false } }

/-- The measured records of `following`. -/
def measured0 (tol : Nat) : Vector ZoneRecord 63 :=
  measuredZones { setup with tol := tol } (following tol .single lensed.lens).focus.bankA viewing.focus.zones

/-- Zone 0 is NEAR with a tolerance of 64 and in focus with one of 400; the target is 1005, at a distance of the deadband from 1001
and of less from 1002. -/
theorem witness_MeasurementSettlesZones :
    measuringBank (measuring false) = some .a ∧ ((measuring false).bank .a).setup = some setup ∧
    ((measuring false).bank .a).gridChanged = false ∧ measuringBank (measuring true) = some .a ∧
    ((measuring true).bank .a).setup = some setup ∧ ((measuring true).bank .a).gridChanged = true ∧
    (∀ t ∈ [64, 400], measuringBank (following t .single lensed.lens) = some .a ∧
      ((following t .single lensed.lens).bank .a).gridChanged = false ∧
      ((following t .single lensed.lens).bank BankId.a.other).state = .full ∧
      exposurePosition ((following t .single lensed.lens).bank .a) = some 1000 ∧
      candidateZones { setup with tol := t } 0xFF (measured0 t) = [0] ∧
      choosePrimary { setup with tol := t } 0xFF (measured0 t) none = some 0 ∧ ((measured0 t).get 0).steps = 5) ∧
    ((measured0 64).get 0).state = .near ∧ ((measured0 400).get 0).state = .inFocus ∧
    MemoryCanonical (following 64 .single lensed.lens) ∧ (following 64 .single lensed.lens).port.work = [] ∧
    (zonesWritten setup viewing.focus.zones (markPrimary (some 0) (measured0 64))).length = 8 ∧
    (∀ z : Fin 63, z.val < 8 → setup.modes.get z = .anyChange) ∧
    absDiff 1005 1001 = setup.deadband ∧ absDiff 1005 1002 < setup.deadband ∧ begun.lens.state ≠ .ready ∧
    (lensAt 1001).exchange = none ∧ (lensAt 1001).stopPending = false ∧ (lensAt 1001).messages = [] ∧
    capturingCount (following 64 .continuous (lensAt 1001)) = 0 ∧ driveWaits.lens.exchange.isSome = true := by
  refine ⟨rfl, rfl, rfl, rfl, rfl, rfl, by decide +kernel, by decide +kernel, by decide +kernel, rfl, ?_⟩
  decide +kernel

/-- A search of 1 is beyond range, and a search of 12 is good. -/
theorem witness_MeasurementWithinBounds :
    (measure workedProfiles 1 100 1024).beyond = true ∧ (measure workedProfiles 12 60000 1024).lowContrast = true ∧
    (measure workedProfiles 12 100 1024).beyond = false := by decide +kernel

/-! ### Witnesses: the lens line -/

/-- `lensed` with n messages waiting behind an exchange. -/
def talking (n : Nat) : State :=
  { lensed with lens := { lensed.lens with
      messages := List.replicate n { tag := 1, kind := 0x40, data := [] }
      exchange := some { request := .status, frame := [2, 2], since := 0, judgeStop := false } } }

theorem witness_LensMessageQueued :
    dispatchedOrder (handed (talking 7) 0x0B [0x7F, 8] []) .lensMessage = some (orderOf 0x0B [0x7F, 8], []) ∧
    dispatchedOrder (handed (talking 7) 0x0B [0x80, 8] []) .lensMessage = some (orderOf 0x0B [0x80, 8], []) ∧
    field [0x7F, 8] 0 1 = 0x7F ∧ field [0x7F, 8] 1 1 = 8 ∧ field [0x80, 8] 0 1 = 0x80 ∧ begun.lens.state ≠ .ready ∧
    (talking 7).lens.state = .ready ∧ (talking 7).lens.messages.length < 8 ∧ 8 ≤ (talking 8).lens.messages.length := by
  decide +kernel

theorem witness_LensPresentDecidesAttachment :
    begun.phase = .started ∧ begun.lens.state = .absent ∧ begun.lens.exchange = none ∧ (talking 8).lens.state ≠ .absent := by
  decide +kernel

/-- A lens in the given state, with n timeouts before it, whose exchange of request r is in flight. -/
def exchanging (st : LensState) (n : Nat) (r : LensRequest) : State :=
  { lensed with lens := { lensed.lens with
      state := st, timeouts := n
      exchange := some { request := r, frame := requestFrame r, since := 0, judgeStop := true } } }

/-- A reply of the given kind, status and moving flag from position 1500 (11.4). -/
def replyFrame (kind status moving : Byte) (rest : List Byte) : List Byte :=
  let body := [kind, status, 0xDC, 0x05, moving] ++ rest
  body ++ [checkByte body]

/-- Each kind of request with good replies of status OK, and BUSY or REFUSED, the last of them of a moving lens. -/
def exchanges : List (LensRequest × List Byte) :=
  [(.ident, replyFrame 1 0 0 [3, 0, 0, 0, 0x88, 0x13]), (.ident, replyFrame 1 1 0 [3, 0, 0, 0, 0x88, 0x13]),
    (.status, replyFrame 2 0 0 []), (.drive 1530 1, replyFrame 3 0 1 []), (.drive 1530 1, replyFrame 3 1 1 []),
    (.stop, replyFrame 4 0 0 []), (.message { tag := 9, kind := 0x40, data := [] }, replyFrame 0x40 0 0 [2, 5, 6]),
    (.message { tag := 9, kind := 0x40, data := [] }, replyFrame 0x40 2 1 [0])]

theorem witness_LensExchangeEndJudged :
    (∀ q ∈ exchanges, ((exchanging .ready 0 q.1).lens.exchange.map Exchange.request) = some q.1 ∧
      (judgeReply q.1 q.2).isSome = true ∧ judgeReply q.1 [] = none) ∧
    (exchanges.map fun q => (judgeReply q.1 q.2).map fun r => (r.status, r.report.moving)) =
      [some (.ok, false), some (.busy, false), some (.ok, false), some (.ok, true), some (.busy, true), some (.ok, false),
        some (.ok, false), some (.refused, true)] ∧
    (exchanging .unresponsive 3 .status).lens.state = .unresponsive ∧ (exchanging .identifying 1 .ident).lens.timeouts < 2 ∧
    (exchanging .identifying 1 .ident).lens.state = .identifying ∧ (exchanging .ready 2 .stop).lens.timeouts = 2 ∧
    (exchanging .ready 2 .stop).lens.messages = [] ∧ (exchanging .ready 2 .stop).lens.pollPending = false := by decide +kernel

/-- A lens in the given state with no exchange, a message queued or not, a target in the drive slot or not, and all else pending. -/
def choosing (st : LensState) (messages target : Bool) (previous : Previous) : State :=
  { lensed with lens := { lensed.lens with
      state := st, previous := previous, drive := if target then some 1530 else none
      messages := if messages then [{ tag := 9, kind := 0x40, data := [1] }] else []
      statusPending := true, identPending := true, pollPending := true } }

theorem witness_ArbiterChose :
    (∀ st m d p, (choosing st m d p).lens.exchange = none ∧ (choosing st m d p).lens.state = st ∧
      (choosing st m d p).lens.stopPending = false ∧ (choosing st m d p).lens.previous = p ∧
      (choosing st m d p).lens.drive = (if d then some 1530 else none) ∧
      (choosing st m d p).lens.report = some { position := 1500, moving := false } ∧
      (choosing st m d p).lens.messages = (if m then [{ tag := 9, kind := 0x40, data := [1] }] else [])) ∧
    (∀ m d, capturingCount (choosing .ready m d .message) = 0) ∧ capturingCount ((choosing .ready true true .other).setShot 5 open1) ≠ 0 := by
  exact ⟨fun _ _ _ _ => ⟨rfl, rfl, rfl, rfl, rfl, rfl, rfl⟩, by decide +kernel⟩

theorem witness_LensTimersSendRequests :
    ({ begun with lens := { begun.lens with state := .identifying, identRetry := .running 50000 } } : State).lens.exchange = none ∧
    ({ lensed with lens := { lensed.lens with state := .unresponsive, poll := .running 50000 } } : State).lens.exchange = none ∧
    lensed.lens.info.isSome = true ∧ begun.lens.info.isSome = false := by decide +kernel

/-! ### Witnesses: development -/

/-- The shot in window 5 is CAPTURING with its development INLINE and two lines of it in the tap FIFO. -/
def developing : State :=
  let s := holding { open1 with dev := .inline }
  { s with
    taps := { s.taps with fifo := [{ window := 5, line := 0, data := List.replicate 64 1 },
      { window := 5, line := 1, data := List.replicate 64 2 }] }
    engine := { s.engine with activity := .inline 5 } }

/-- A profile of 64 columns and h rows at scale 4: an output row of one line for every 16 input lines. -/
def narrow (h : Nat) : Profile :=
  { prof with width := 64, height := h, devSet := { prof.devSet with scale := 4 } }

/-- The shot in window 5 is SEALED and INLINE under `narrow h`, and line 15, which completes output row 0, is at the head of the
FIFO. -/
def completing (h : Nat) : State :=
  let s := holding { sealed1 with
    dev := .inline, reservation := 1, copy := some { slot := 0, profile := narrow h }, devSet := some (narrow h).devSet }
  { s with
    taps := { s.taps with fifo := [{ window := 5, line := 15, data := List.replicate 64 1 }] }
    engine := { s.engine with
      activity := .inline 5
      run := { freshRun with nextLine := 15, acc := List.replicate 960 1 } } }

/-- The row that a line with the given data completes under `narrow h`. -/
def rowAt (s : State) (h : Nat) (bytes : List Byte) : List Pixel :=
  outputRow (narrow h) (narrow h).devSet (s.engine.tones[(narrow h).devSet.tone]?.getD (.replicate 257 0)) 0 bytes

/-- The preview lines of that row: bytes 0 to 31 of the preview, and with h of 8, the last row, the whole line. -/
def linesAt (s : State) (h : Nat) (bytes : List Byte) : List (Nat × List Byte × BitVec 64) :=
  rowWrites 0 ((rowAt s h bytes).flatMap Pixel.bytes) (decide (1 = h / 8))

theorem rowOf_narrow (s : State) (h : Nat) (bytes : List Byte) :
    RowOf s (narrow h) (narrow h).devSet 15 bytes (rowAt s h bytes) (linesAt s h bytes) := by
  have e : (15 + 1) / (2 * (narrow h).devSet.scale * linesPerRow (narrow h).width) - 1 = 0 := by
    show (15 + 1) / (2 * 4 * linesPerRow 64) - 1 = 0
    decide
  refine ⟨?_, ?_, ?_⟩
  · show (15 + 1) % (2 * 4 * linesPerRow 64) = 0
    decide
  · rw [e]; rfl
  · rw [e, Nat.zero_mul, Nat.zero_mul]; rfl

/-- `completing 16` with the preview granule of the row still to be mapped. -/
def unmapped : State :=
  let s := (completing 16).modShot 5 fun x => { x with previewMapped := 0 }
  { s with
    maps := s.maps.set 5 { s.mapsOf 5 with preview := emptyMaps.preview }
    pool := { s.pool with free := 2049 :: s.pool.free } }

theorem witness_UnmappedRow :
    (∀ bytes, RowOf unmapped (narrow 16) (narrow 16).devSet 15 bytes (rowAt unmapped 16 bytes) (linesAt unmapped 16 bytes)) ∧
    unmapped.engine.activity = .inline 5 ∧ unmapped.engine.stop ≠ some 5 ∧ unmapped.engine.run.rowWaits = false ∧
    (unmapped.shot 5).profile = some (narrow 16) ∧ (unmapped.shot 5).devSet = some (narrow 16).devSet ∧
    15 + 1 ≠ (narrow 16).lines ∧ (linesAt unmapped 16 (List.replicate 1024 1)).map (fun l => l.1 / Config.granule) = [0] ∧
    (unmapped.mapsOf 5).preview[0]? = some none ∧ unmapped.pool.free = 2049 :: (List.range 6).map (fun i => 2050 + i) ∧
    (unmapped.shot 5).reservation = 0 + 1 ∧ unmapped.port.work = [] ∧
    unmapped.port.writes.length + (linesAt unmapped 16 (List.replicate 1024 1)).length + 2 ≤ 32 :=
  ⟨fun _ => rowOf_narrow _ _ _, by decide +kernel⟩

/-- Line 15 of 16 rows is no last line, and of 8 rows it is. -/
theorem witness_CompletedRow :
    (∀ h ∈ [8, 16],
      (completing h).engine.activity = .inline 5 ∧ (completing h).engine.run.rowWaits = false ∧
      ((completing h).shot 5).profile = some (narrow h) ∧ ((completing h).shot 5).devSet = some (narrow h).devSet ∧
      (completing h).engine.stop ≠ some 5 ∧ (completing h).port.work = [] ∧ (completing h).engine.queue = [] ∧
      (∀ v, v ≠ 5 → ((completing h).shot v).dev ≠ .inline) ∧
      ((completing h).shot 5).state = .sealed ∧ ({ (completing h).shot 5 with dev := .done } : Shot).releasable = false) ∧
    (narrow 8).lines = 15 + 1 ∧ (narrow 16).lines ≠ 15 + 1 := by decide +kernel

/-- `completing 8`, whose line ends the inline job, with a job of the SEALED shot in window 9 in the replay queue, suspended or new. -/
def handingOn (saved : Option Progress) : State :=
  let s := (completing 8).setShot 9 { sealed1 with seq := 2, dev := .queued }
  { s with engine := { s.engine with
      queue := [{ jobOf 9 .develop with set := some prof.devSet, nextRow := 4, begun := saved.isSome, saved := saved }] } }

theorem witness_InlineEndBeginsHeadJob :
    (∀ pr ∈ [none, some { crc := none, hist := zeroHist, clip := ⟨1, 2, 3⟩, still := none }],
      (handingOn pr).engine.activity = .inline 5 ∧ ((handingOn pr).shot 9).state ≠ .capturing ∧
      ((handingOn pr).shot 9).profile = some prof ∧ (∀ v, v ≠ 5 → ((handingOn pr).shot v).dev ≠ .inline) ∧
      ({ (handingOn pr).shot 5 with dev := .done } : Shot).releasable = false) ∧
    (handingOn none).engine.queue = { jobOf 9 .develop with set := some prof.devSet, nextRow := 4 } :: [] := by
  decide +kernel

theorem witness_CompletedRowLines :
    (∀ h, RowOf (completing h) (narrow h) (narrow h).devSet 15 (List.replicate 1024 1)
      (rowAt (completing h) h (List.replicate 1024 1)) (linesAt (completing h) h (List.replicate 1024 1))) ∧
    (linesAt (completing 8) 8 (List.replicate 1024 1)).map (fun l => (l.1, l.2.2)) = [(0, fullMask)] ∧
    (linesAt (completing 16) 16 (List.replicate 1024 1)).map (fun l => (l.1, l.2.2)) = [(0, rangeMask 0 32)] ∧
    ((completing 16).previewEntry 5 (0 / Config.granule)).isSome = true :=
  ⟨fun _ => rowOf_narrow _ _ _, by decide +kernel, by decide +kernel, by decide +kernel⟩

theorem witness_LoadToneReplacesTable :
    dispatchedOrder (handed developing 0x0C [1] []) .loadTone = some (orderOf 0x0C [1], []) ∧
    dispatchedOrder (handed developing 0x0C [2] []) .loadTone = some (orderOf 0x0C [2], []) ∧
    toneInUse developing 0 = true ∧ toneInUse developing 1 = false ∧ field [2] 0 1 = 2 ∧ field [1] 0 1 = 1 := by decide +kernel

/-- A sealed shot in window 5 while the engine develops another, with n jobs queued. -/
def engineBusy (n : Nat) : State :=
  let s := holding sealed1
  { s with engine := { s.engine with
      activity := .inline 7
      queue := List.replicate n
        { window := 9, seq := 1, kind := .check, set := none, nextRow := 0, begun := false, saved := none } } }

/-- The parameters of REDEVELOP with tone table 1. -/
def redevelopParams : List Byte := List.replicate 24 1 ++ [1]

theorem witness_RedevelopQueuesJob :
    Names (handed (engineBusy 15) 0x0D redevelopParams []) (orderOf 0x0D redevelopParams) 5 ∧
    dispatchedOrder (handed (engineBusy 15) 0x0D redevelopParams []) .redevelop = some (orderOf 0x0D redevelopParams, []) ∧
    ((engineBusy 15).shot 5).state = .sealed ∧ ((engineBusy 15).shot 5).devSet = some prof.devSet ∧
    ((engineBusy 15).shot 5).developed = true ∧ field redevelopParams 24 1 ≤ 1 ∧ (replaying.shot 5).dev = .replaying ∧
    ((engineBusy 15).shot 5).dev = .done ∧ ((engineBusy 15).shot 5).tether ≠ .sending ∧
    (engineBusy 15).engine.queue.length < 16 ∧ 16 ≤ (engineBusy 16).engine.queue.length ∧
    shortfall ((engineBusy 15).shot 5) ≤ available (engineBusy 15) ∧ (engineBusy 15).engine.activity ≠ .idle ∧
    (holding sealed1).engine.activity = .idle ∧ (holding sealed1).engine.queue = [] ∧
    (∀ v, ((holding sealed1).shot v).dev ≠ .inline) ∧ ((holding sealed1).shot 5).profile = some prof ∧
    shortfall ((holding sealed1).shot 5) ≤ available (holding sealed1) :=
  ⟨names _ _ _, by decide +kernel⟩

theorem witness_InlineLineJoinsRow :
    developing.engine.activity = .inline 5 ∧ developing.engine.run.rowWaits = false ∧
    developing.taps.fifo.head? = some { window := 5, line := 0, data := List.replicate 64 1 } ∧
    (developing.shot 5).profile = some prof ∧ (developing.shot 5).devSet = some prof.devSet ∧
    (0 + 1) % (2 * prof.devSet.scale * linesPerRow prof.width) ≠ 0 ∧ previewWaits developing = false ∧
    developing.engine.stop ≠ some 5 ∧ 0 + 1 ≠ prof.lines := by decide +kernel

/-- The CHECK job of the shot in window 5. -/
def checkJob : Job := { window := 5, seq := 1, kind := .check, set := none, nextRow := 0, begun := true, saved := none }

/-- That job runs, and the line it waits for is answered by zeros. -/
def checking : State :=
  let s := holding { sealed1 with dev := .replaying, crc := none, checkOnly := true }
  { s with engine := { s.engine with
      activity := .replay, replayLine := .zeros, queue := [checkJob], run := { freshRun with crc := some crcInit } } }

theorem witness_ReplayLineFeedsCheck :
    checking.engine.activity = .replay ∧ checking.engine.queue = checkJob :: [] ∧ checking.engine.run.rowWaits = false ∧
    returnedLine checking = some (zeroLine, checking) ∧ checkJob.kind = .check ∧ (checking.shot 5).profile = some prof ∧
    checking.engine.run.still = none ∧ previewWaits checking = false ∧ checking.engine.stop ≠ some 5 ∧
    checking.engine.run.nextLine + 1 ≠ prof.lines ∧ boundaryAt prof checkJob (checking.engine.run.nextLine + 1) = false := by
  decide +kernel

/-- A replay job of the given kind under `narrow 16` uses line l next, with the row being formed before it; asked to suspend for the
shot in window 7, or not. -/
def atLine (k : JobKind) (l : Nat) (suspend : Bool) : State :=
  let s := (holding { sealed1 with
    dev := .replaying, crc := none, copy := some { slot := 0, profile := narrow 16 }, devSet := some (narrow 16).devSet }).setShot 7
      { open1 with seq := 3, dev := if suspend then .inline else .none }
  { s with engine := { s.engine with
      activity := .replay, replayLine := .zeros, suspend := suspend
      queue := [{ checkJob with kind := k, set := some (narrow 16).devSet }]
      run := { freshRun with nextLine := l, crc := some crcInit, acc := List.replicate (64 * l) 0 } } }

/-- Line 13 ends a boundary of a CHECK job alone, and line 15 of a DEVELOP job too, whose output row it completes. -/
theorem witness_ReplayBoundaries :
    (∀ k ∈ [JobKind.check, .develop], ∀ l ∈ [13, 15], ∀ suspend ∈ [true, false],
      (atLine k l suspend).engine.queue = { checkJob with kind := k, set := some (narrow 16).devSet } :: [] ∧
      (atLine k l suspend).engine.run.rowWaits = false ∧ previewWaits (atLine k l suspend) = false ∧
      ((atLine k l suspend).shot 5).profile = some (narrow 16) ∧ (atLine k l suspend).engine.run.still = none ∧
      (atLine k l suspend).engine.stop ≠ some 5 ∧ l + 1 ≠ (narrow 16).lines ∧
      returnedLine (atLine k l suspend) = some (zeroLine, atLine k l suspend) ∧
      inlineShot (atLine k l suspend) = (if suspend then some 7 else none) ∧
      ((atLine k l suspend).shot 5).dev = .replaying ∧
      boundaryAt (narrow 16) { checkJob with kind := k } (l + 1) = decide (k = .check ∨ l = 15)) ∧
    (13 + 1) % (2 * (narrow 16).devSet.scale * linesPerRow (narrow 16).width) ≠ 0 ∧
    (∀ suspend, RowOf (atLine .develop 15 suspend) (narrow 16) (narrow 16).devSet 15 (List.replicate 1024 0)
      (rowAt (atLine .develop 15 suspend) 16 (List.replicate 1024 0))
      (linesAt (atLine .develop 15 suspend) 16 (List.replicate 1024 0))) ∧
    (linesAt (atLine .develop 15 true) 16 (List.replicate 1024 0)).map (fun l => l.1 / Config.granule) = [0] ∧
    ((atLine .develop 15 true).previewEntry 5 0).isSome = true ∧ (atLine .develop 15 true).port.work = [] :=
  ⟨by decide +kernel, by decide +kernel, fun _ => rowOf_narrow _ _ _, by decide +kernel⟩

/-- A replay job of the given kind under `narrow 8` waits for line 15, the last, which zeros answer. -/
def ending (k : JobKind) : State :=
  let s := holding { sealed1 with
    dev := .replaying, crc := none, checkOnly := decide (k = .check), tether := .notSelected,
    copy := some { slot := 0, profile := narrow 8 }, devSet := some (narrow 8).devSet }
  { s with engine := { s.engine with
      activity := .replay, replayLine := .zeros
      queue := [{ checkJob with kind := k, set := some (narrow 8).devSet }]
      run := { freshRun with nextLine := 15, crc := some crcInit, acc := List.replicate 960 0 } } }

theorem witness_ReplayJobEnds :
    (∀ k ∈ [JobKind.check, .develop],
      (ending k).engine.activity = .replay ∧
      (ending k).engine.queue = { checkJob with kind := k, set := some (narrow 8).devSet } :: [] ∧
      (ending k).engine.run.rowWaits = false ∧ ((ending k).shot 5).profile = some (narrow 8) ∧
      (ending k).engine.run.still = none ∧ previewWaits (ending k) = false ∧ (ending k).engine.stop ≠ some 5 ∧
      (ending k).engine.run.nextLine + 1 = (narrow 8).lines ∧ ((ending k).shot 5).tether ≠ .undecided ∧
      (∀ v, v ≠ 5 → ((ending k).shot v).dev ≠ .inline) ∧ (ending k).port.work = [] ∧
      ({ (ending k).shot 5 with dev := .done } : Shot).releasable = false ∧
      ({ (ending k).shot 5 with dev := .failed } : Shot).releasable = false ∧
      returnedLine (ending k) = some (zeroLine, ending k)) ∧ ((ending .check).shot 5).developed = true ∧
    RowOf (ending .develop) (narrow 8) (narrow 8).devSet 15 (List.replicate 1024 0)
      (rowAt (ending .develop) 8 (List.replicate 1024 0)) (linesAt (ending .develop) 8 (List.replicate 1024 0)) :=
  ⟨by decide +kernel, by decide +kernel, rowOf_narrow _ _ _⟩

theorem witness_ToneStaysWithinTable :
    (∀ i : Fin 257, (Vector.replicate 257 255).get i ≤ 255) ∧ toned (.replicate 257 255) 65535 = 255 := by decide +kernel

/-! ### Witnesses: card and tether -/

/-- A protected SEALED shot with the given card status, `n` bytes of it read. -/
def cardShot (c : CardStatus) (n : Nat) : State := holding { sealed1 with card := c, cardBytes := n, protect := true }

theorem witness_CardOrdersChangeCardStatus :
    Names (handed (cardShot .failed 262144) 0x0E [1] []) (orderOf 0x0E [1]) 5 ∧
    Names (handed (cardShot .done 0) 0x0F [1] []) (orderOf 0x0F [1]) 5 ∧ ((cardShot .done 0).shot 5).card = .done ∧
    dispatchedOrder (handed (cardShot .done 0) 0x0F [1] []) .cardRetry = some (orderOf 0x0F [1], []) ∧
    dispatchedOrder (handed (cardShot .failed 262144) 0x0E [1] []) .cardDone = some (orderOf 0x0E [1], []) ∧
    dispatchedOrder (handed (cardShot .failed 262144) 0x0F [1] []) .cardRetry = some (orderOf 0x0F [1], []) ∧
    ((holding open1).shot 5).state ≠ .sealed ∧ ((cardShot .failed 262143).shot 5).state = .sealed ∧
    ((cardShot .failed 262143).shot 5).card = .failed ∧
    ((cardShot .failed 262143).shot 5).cardBytes < ((cardShot .failed 262143).shot 5).rawLength ∧
    ((cardShot .failed 262144).shot 5).rawLength ≤ ((cardShot .failed 262144).shot 5).cardBytes ∧
    flagAt [0] 0 = false ∧ flagAt [1] 0 = true ∧
    ({ (cardShot .failed 262144).shot 5 with card := .done } : Shot).releasable = false ∧
    ({ checked .notSelected with card := .done } : Shot).releasable = true ∧
    ((cardShot .reading 262144).shot 5).card = .reading :=
  ⟨names _ _ _, names _ _ _, by decide +kernel⟩

/-- A selection table of 16 alike rules with the given rating. -/
def rulesImage (rating : Byte) : List Byte := (List.replicate 16 [1, 1, 0, 0, rating, 2, 4, 0]).flatten

theorem witness_SelectionTableReplaced :
    dispatchedOrder (handed begun 0x10 [] (rulesImage 5)) .setSelection = some (orderOf 0x10 [], rulesImage 5) ∧
    (decodeRules (rulesImage 5)).isSome = true ∧ decodeRules (rulesImage 6) = none ∧
    (∀ w, (begun.shot w).tether ≠ .undecided) ∧
    ((holding (checked .undecided)).shot 5).state = .sealed ∧ ((holding (checked .undecided)).shot 5).tether = .undecided ∧
    ((holding (checked .undecided)).shot 5).inputsPresent = true ∧
    (∀ v, v ≠ 5 → ((holding (checked .undecided)).shot v).state ≠ .sealed) ∧
    selected (judged (checked .undecided) false) (checked .undecided) = some .raw ∧
    selected (judged (checked .undecided) false) { checked .undecided with rating := 4 } = none ∧
    ({ checked .undecided with tether := .notSelected, protect := true } : Shot).releasable = false ∧
    ({ checked .undecided with tether := .notSelected } : Shot).releasable = true := by decide +kernel

/-- Four SEALED, UNDECIDED shots: those in windows 7, 41 and 5 have their inputs, in that order of sequence number, and the one in
window 40 has not; the last of the three is rated too low to be sent. -/
def manyUndecided : State :=
  (((judged { checked .undecided with seq := 9, rating := 4 } false).setShot 7 { checked .undecided with seq := 3 }).setShot 41
    { checked .undecided with seq := 5, urgent := true }).setShot 40 { checked .undecided with seq := 4, focusCheck := none }

theorem witness_SelectionInSequenceOrder :
    ([7, 41, 5] : List (Fin 64)).Pairwise (fun v w => (manyUndecided.shot v).seq < (manyUndecided.shot w).seq) ∧
    (∀ w, w ∈ ([7, 41, 5] : List (Fin 64)) ↔ (manyUndecided.shot w).state = .sealed ∧ (manyUndecided.shot w).tether = .undecided ∧
      (manyUndecided.shot w).inputsPresent = true) ∧
    (([7, 41, 5] : List (Fin 64)).map fun w => ((selected manyUndecided (manyUndecided.shot w)),
      ({ manyUndecided.shot w with tether := .notSelected } : Shot).releasable)) =
      [(some .raw, true), (some .raw, true), (none, true)] := by
  decide +kernel

/-- A protected SEALED shot that is being sent RAW, with n bytes of it read. -/
def sending (n : Nat) : State :=
  let s := holding { sealed1 with tether := .sending, sendWhat := some .raw, tetherRaw := n, protect := true }
  { s with tether := { s.tether with
      queue := [{ window := 5, seq := 1, send := .raw, urgent := false, ready := true, forced := false }] } }

theorem witness_TetherDoneEndsEntry :
    Names (handed (sending 262144) 0x11 [1, 0] []) (orderOf 0x11 [1, 0]) 5 ∧
    dispatchedOrder (handed (sending 262144) 0x11 [1, 0] []) .tetherDone = some (orderOf 0x11 [1, 0], []) ∧
    ((sending 262144).shot 5).state = .sealed ∧ ((sending 262144).shot 5).tether = .sending ∧
    ((sending 262144).shot 5).sendWhat = some .raw ∧ tetherPartOf (field [1, 0] 0 1) = some .raw ∧
    tetherOutcomeOf (field [1, 0] 1 1) = some .sent ∧ TetherPart.carriedBy .raw .raw = true ∧
    tetherCovered ((sending 262143).shot 5) .raw .raw = false ∧ tetherCovered ((sending 262144).shot 5) .raw .raw = true ∧
    tetherOutcomeOf (field [1, 1] 1 1) = some .abandoned ∧
    ({ (sending 262144).shot 5 with tether := .sent } : Shot).releasable = false ∧
    ({ checked .queued with tether := .abandoned } : Shot).releasable = true ∧
    tetherPartOf (field [0, 1] 0 1) = some .preview ∧ TetherPart.carriedBy .preview .previewThenRaw = true ∧
    ((judged { checked .queued with sendWhat := some .previewThenRaw } false).shot 5).sendWhat = some .previewThenRaw ∧
    (tetherEntry (judged { checked .queued with sendWhat := some .previewThenRaw } false) 5).isSome = true :=
  ⟨names _ _ _, by decide +kernel⟩

/-- A SEALED shot that was not selected. -/
def unselected : State := holding { sealed1 with tether := .notSelected }

theorem witness_SendNowJoinsUrgentClass :
    Names (handed unselected 0x12 [3] []) (orderOf 0x12 [3]) 5 ∧ Names (handed (sending 0) 0x12 [3] []) (orderOf 0x12 [3]) 5 ∧
    dispatchedOrder (handed unselected 0x12 [3] []) .sendNow = some (orderOf 0x12 [3], []) ∧
    sendWhatOf (field [3] 0 1) = some .previewThenRaw ∧ sendWhatOf (field [4] 0 1) = none ∧ sendWhatOf (field [0] 0 1) = none ∧
    ((holding open1).shot 5).state ≠ .sealed ∧ (unselected.shot 5).state = .sealed ∧
    (unselected.shot 5).tether = .notSelected ∧ ((sending 0).shot 5).tether = .sending :=
  ⟨names _ _ _, names _ _ _, by decide +kernel⟩

/-! ### Witnesses: the attention line -/

theorem witness_AttentionFollowsSettings :
    dispatchedOrder (handed begun 0x13 [64, 0, 0, 1, 255] []) .setNotice = some (orderOf 0x13 [64, 0, 0, 1, 255], []) ∧
    dispatchedOrder (handed begun 0x13 [65, 0, 0, 1, 255] []) .setNotice = some (orderOf 0x13 [65, 0, 0, 1, 255], []) ∧
    attentionModeOf (field [64, 0, 0, 1, 255] 3 1) = some .pulse ∧ attentionModeOf (field [64, 0, 0, 0, 255] 3 1) = some .level ∧
    field [64, 0, 0, 1, 255] 0 1 = 64 ∧ 64 < field [65, 0, 0, 1, 255] 0 1 ∧ begun.notice.mode = .level ∧
    (noticed 0).notice.unconsumed = { time := 0, urgent := false } :: List.replicate 6 { time := 0, urgent := false } ∧
    0 < ({ noticed 0 with notice := { (noticed 0).notice with age := 1 } } : State).notice.age ∧
    ({ begun with notice := { begun.notice with pulse := .running 255, line := true } } : State).notice.pulse = .running 255 ∧
    (pulsing false).phase = .started ∧ (pulsing false).notice.mode = .pulse ∧ (pulsing false).notice.standing = false ∧
    (pulsing false).notice.pulse = .stopped := by
  decide +kernel

end Sys2Proof.Tests
end

section
/-! PROOFS. O36: SET POOL with the marks-only flag. R169 lets an order's own notices come before its status byte, and
`State.owingSince` is what marks them. Work that waits behind a held line shows whether the mark was made: this part says what
`hand` and `finishOrder` leave waiting there, and a state in which POOL LOW waits so refutes the statement. -/

namespace Sys2Proof.Machine

set_option Elab.async false

/-! ### Work that comes up behind work that is held -/

theorem emit_held {s : State} (w : OwnWork) (h : s.port.work ≠ []) : emit s w = joinWork s w := by
  simp [emit, h]

/-- A notice that reports a held line waits behind it, not handed over. -/
theorem hand_behind_reported_line {s : State} {n : Notice} {l : OwnLine} (hl : .line l ∈ s.port.work)
    (hn : n.reports l = true) :
    hand s n = { s with port := { s.port with work := s.port.work ++ [.notice n .waits] } } := by
  have hwaits : (OwnWork.notice n .waits).waits = true := rfl
  have hfor : s.port.work.any (OwnWork.notice n .waits).waitsFor = true := List.any_eq_true.mpr ⟨_, hl, hn⟩
  rw [hand, emit_held _ (List.ne_nil_of_mem hl), joinWork]
  simp [hwaits, hfor]

/-- The status byte of an order that is finished while work is held comes behind it, due at once unless the order owes a notice. -/
theorem finishOrder_held_work {s : State} (o : OrderRecord) (st : OrderStatus) (h : s.port.work ≠ []) :
    (finishOrder s o st).port.work =
      s.port.work ++ [.orderStatus st (!s.port.work.any (OwnWork.orderStatus st false).waitsFor)] := by
  have hwaits : (OwnWork.orderStatus st false).waits = true := rfl
  have hjoin : finishOrder s o st =
      joinWork { s with order := { s.order with phase := .completing o } } (.orderStatus st false) := emit_held _ h
  rw [hjoin, joinWork]
  cases hfor : s.port.work.any (OwnWork.orderStatus st false).waitsFor <;> simp [hwaits, comeUp]

/-- Notices that have waited all along stay as they are; those behind them are owed. -/
theorem oweNotices_append (ws vs : List OwnWork) :
    oweNotices (ws.countP OwnWork.isHeldNotice) (ws ++ vs) = ws ++ oweNotices 0 vs := by
  induction ws with
  | nil => rfl
  | cons w ws ih =>
    cases w with
    | notice n st => cases st <;> simp [oweNotices, OwnWork.isHeldNotice, ih]
    | _ => simpa [oweNotices, OwnWork.isHeldNotice] using ih

/-- The notice that an order's rule has left waiting behind a held line is owed. -/
theorem hand_owingSince_work {s t : State} {n : Notice} {l : OwnLine} (ht : t.port.work = s.port.work)
    (hl : .line l ∈ t.port.work) (hn : n.reports l = true) :
    ((hand t n).owingSince s).port.work = t.port.work ++ [.notice n .owed] := by
  rw [hand_behind_reported_line hl hn, State.owingSince, ← ht]
  exact oweNotices_append _ _

/-- Behind a held line that a notice reports, it shows whether the order that hands the notice over owes it: when it does not, and
owes no other, its status byte is due before the notice. -/
theorem finishOrder_hand_ne_owing {s t : State} {n : Notice} {l : OwnLine} (o : OrderRecord) (st : OrderStatus)
    (ht : t.port.work = s.port.work) (hl : .line l ∈ t.port.work) (hn : n.reports l = true)
    (hnone : t.port.work.any (OwnWork.orderStatus st false).waitsFor = false) :
    finishOrder (hand t n) o st ≠ finishOrder ((hand t n).owingSince s) o st := by
  intro h
  have hdue : (finishOrder (hand t n) o st).port.work = t.port.work ++ [.notice n .waits, .orderStatus st true] := by
    rw [finishOrder_held_work] <;> simp [hand_behind_reported_line hl hn, hnone, OwnWork.waitsFor]
  have howed : (finishOrder ((hand t n).owingSince s) o st).port.work =
      t.port.work ++ [.notice n .owed, .orderStatus st false] := by
    rw [finishOrder_held_work] <;> simp [hand_owingSince_work ht hl hn, OwnWork.waitsFor]
  rw [h, howed] at hdue
  simp at hdue

/-! ### The step -/

/-- R19: an armed flag with available below the low mark. -/
theorem evalArmed_low {s : State} (harmed : s.pool.armed = true) (hlow : available s < s.pool.low) :
    evalArmed s = hand { s with pool := { s.pool with armed := false } } (poolLowNotice s) :=
  if_pos (by simp [harmed, hlow])

/-- R19, R22: with marks that are accepted, an armed flag and available below the new low mark, SET POOL with the marks-only flag
hands over POOL LOW and is finished, without owing it. -/
theorem exec_setPoolMarksOnly_low {s : State} {o : OrderRecord} {img : List Byte} {low high : Nat}
    (hd : dispatchedOrder s .setPool = some (o, img)) (hm : marksOnly o = true) (hlow : low = field o.params 4 2)
    (hhigh : high = field o.params 6 2) (hle : low ≤ high) (hsize : high ≤ s.pool.size) (harmed : s.pool.armed = true)
    (hav : available s < low) :
    exec .setPoolMarksOnly s = .next (finishOrder
      (hand { s with pool := { s.pool with low := low, high := high, armed := false } } (poolLowNotice s)) o .done) := by
  have hok : ¬(high < low ∨ s.pool.size < high) := by omega
  have hstep : exec .setPoolMarksOnly s = execSetPoolMarksOnly s := rfl
  have hrule : setMarksRule o img s =
      (evalArmed { s with pool := { s.pool with low := low, high := high } }, .done) := by
    rw [setMarksRule, ← hlow, ← hhigh, if_neg hok]
  have heval : evalArmed { s with pool := { s.pool with low := low, high := high } } =
      hand { s with pool := { s.pool with low := low, high := high, armed := false } } (poolLowNotice s) :=
    evalArmed_low (s := { s with pool := { s.pool with low := low, high := high } }) harmed hav
  rw [hstep, execSetPoolMarksOnly, hd]
  simp only [hm, if_true, hrule, heval]

/-! ### The refuting state -/

/-- SET POOL, marks only, with low mark 6 and high mark 8. -/
def marksOrder : OrderRecord :=
  { code := 1, notify := true, tag := 7, window := 0, staging := 0, seq := 0, params := [0, 0, 0, 0, 6, 0, 8, 0, 1] }

/-- A pool of 8 free granules, 3 of them reserved by a CAPTURING shot, with the flag armed and `marksOrder` in the hands of the
Granule Pool. The inserted-write queue is full, and cursor page line 2 waits for a place in it. -/
def marksBehindHeldLine : State :=
  let s := (State.powerOn 0 3 false []).setShot 5 { freeShot with state := .capturing, seq := 1, reservation := 3 }
  { s with
    phase := .started
    pool := { first := 2048, size := 8, free := (List.range 8).map fun i => 2048 + i, low := 1, high := 2, armed := true }
    order := { post := 1, taken := 0, phase := .dispatched marksOrder [] }
    port := { s.port with
      writes := List.replicate Config.writePlaces { addr := 64, data := [], mask := 0, entry := 0, wait := 0 }
      work := [.line (.cursor 2)] } }

/-- Refutes O36: `execSetPoolMarksOnly` finishes the order without `State.owingSince`, so a POOL LOW that waits behind a held cursor
page line 2 is not owed, and the order's status byte is due before it. -/
theorem not_setPoolMarksOnlyRule : ¬ Obligations.SetPoolMarksOnlyRule := by
  unfold Obligations.SetPoolMarksOnlyRule
  intro h
  have hd : dispatchedOrder marksBehindHeldLine .setPool = some (marksOrder, []) := by decide +kernel
  have hm : marksOnly marksOrder = true := by decide +kernel
  have hlow : 6 = field marksOrder.params 4 2 := by decide +kernel
  have hhigh : 8 = field marksOrder.params 6 2 := by decide +kernel
  have harmed : marksBehindHeldLine.pool.armed = true := rfl
  have hav : available marksBehindHeldLine < 6 := by decide +kernel
  have hsize : 8 ≤ marksBehindHeldLine.pool.size := Nat.le_refl 8
  obtain ⟨u, hexec, -, hclause, -⟩ := (h _ _ _ 6 8 hd hm hlow hhigh).2 (by decide) hsize
  rw [exec_setPoolMarksOnly_low hd hm hlow hhigh (by decide) hsize harmed hav, hclause harmed hav] at hexec
  exact finishOrder_hand_ne_owing (l := .cursor 2) marksOrder .done rfl (List.mem_singleton.mpr rfl) rfl rfl
    (Host.Outcome.next.inj hexec)

end Sys2Proof.Machine
end

section
/-! PROOFS. O34: an order that names no shot is refused. O38: SELECT PROFILE. Both run an order's rule through `runOrder`; this part
says once what that answers, what `forShot` refuses (R38), and what recomputing the capture cursor leaves behind (R33). -/

namespace Sys2Proof.Machine

/-! ### Running an order's rule -/

theorem runOrder_dispatched {s : State} {k : OrderKind} {o : OrderRecord} {img : List Byte}
    (f : OrderRecord → List Byte → State → State × OrderStatus) (hd : dispatchedOrder s k = some (o, img)) :
    runOrder s k f = .next (finishOrder ((f o img s).1.owingSince s) o (f o img s).2) := by
  simp [runOrder, hd]

/-- A rule that leaves the state as it was owes no notice: its status is all that follows. -/
theorem runOrder_unchanged {s : State} {k : OrderKind} {o : OrderRecord} {img : List Byte} {st : OrderStatus}
    {f : OrderRecord → List Byte → State → State × OrderStatus} (hd : dispatchedOrder s k = some (o, img))
    (hf : f o img s = (s, st)) : runOrder s k f = .next (finishOrder s o st) := by
  rw [runOrder_dispatched f hd, hf, owingSince_work rfl]

/-! ### Orders that name a shot (R38) -/

theorem forShot_no_window {o : OrderRecord} (s : State) (f : Fin 64 → State → State × OrderStatus) (h : 64 ≤ o.window) :
    forShot o s f = (s, .badParam) :=
  dif_neg (Nat.not_lt.mpr h)

theorem forShot_no_shot {s : State} {o : OrderRecord} {w : Fin 64} (f : Fin 64 → State → State × OrderStatus)
    (hw : o.window = w.val) (h : (s.shot w).state = .free ∨ (s.shot w).seq ≠ o.seq) : forShot o s f = (s, .state) := by
  have hlt : o.window < 64 := hw ▸ w.isLt
  obtain rfl : w = ⟨o.window, hlt⟩ := Fin.ext hw.symm
  rw [forShot, dif_pos hlt, if_pos (by simpa using h)]

/-- The orders that name a shot, each with the kind of its record. -/
def shotOrders : List (Instr × OrderKind) :=
  [(.sealOrder, .seal), (.discard, .discard), (.protect, .protect), (.unprotect, .unprotect), (.rate, .rate),
    (.redevelop, .redevelop), (.cardDone, .cardDone), (.cardRetry, .cardRetry), (.tetherDone, .tetherDone), (.sendNow, .sendNow)]

/-- Each of them checks the shot before conditions of its own. -/
theorem exec_shotOrder : ∀ p ∈ shotOrders, ∃ f : OrderRecord → Fin 64 → State → State × OrderStatus,
    ∀ s, exec p.1 s = runOrder s p.2 fun o _ s => forShot o s (f o) := by
  simp only [shotOrders, List.forall_mem_cons]
  refine ⟨?sealOrder, ?discard, ?protect, ?unprotect, ?rate, ?redevelop, ?cardDone, ?cardRetry, ?tetherDone, ?sendNow, ?others⟩
  case others => exact List.forall_mem_nil _
  all_goals exact ⟨_, fun _ => rfl⟩

/-- Settles O34, by what `forShot` refuses before it consults the order's own rule. -/
theorem orderNamingNoShotRefused : Obligations.OrderNamingNoShotRefused := by
  unfold Obligations.OrderNamingNoShotRefused
  intro p hp s o img hd
  obtain ⟨f, hexec⟩ := exec_shotOrder p hp
  rw [hexec s]
  exact ⟨fun hwindow => runOrder_unchanged hd (forShot_no_window s (f o) hwindow),
    fun w hw hnone => runOrder_unchanged hd (forShot_no_shot (f o) hw hnone)⟩

/-! ### The capture cursor (R33) -/

/-- Cursor page line 1 is written back only when cursor or admissible flag has changed; the state holds the recomputed values either
way. -/
theorem refreshCursor_eq (s : State) :
    refreshCursor s =
      if s.table.cursor = (recomputeCursor s).table.cursor ∧ s.table.admissible = (recomputeCursor s).table.admissible then
        recomputeCursor s
      else publish (recomputeCursor s) 1 := by
  simp only [refreshCursor, Bool.and_eq_true, decide_eq_true_eq, beq_iff_eq]
  refine ite_congr rfl (fun ⟨hcursor, hadmissible⟩ => ?_) fun _ => rfl
  have hsame : { s with table := { s.table with
      cursor := (recomputeCursor s).table.cursor, admissible := (recomputeCursor s).table.admissible } } = s := by
    rw [← hcursor, ← hadmissible]
  exact hsame.symm

theorem refreshCursor_reports (s : State) : OnlyReports [.cursor 1] 0 (recomputeCursor s) (refreshCursor s) := by
  rw [refreshCursor_eq]
  split
  · exact (OnlyReports.refl _).mono (by simp) (Nat.le_refl 0)
  · exact publish_reports _ 1

/-- Reports move neither the profile in force nor what the cursor and the admissible flag are computed from. -/
theorem OnlyReports.cursor_fields {ls : List OwnLine} {n : Nat} {s t : State} (h : OnlyReports ls n (recomputeCursor s) t) :
    activeProfile t = activeProfile s ∧ t.table.cursor = captureCursorOf t ∧
      t.table.admissible = admissibleOf t (captureCursorOf t) := by
  have hcursor : captureCursorOf t = captureCursorOf s := h.ownWork.field captureCursorOf
  have hadmissible : admissibleOf t (captureCursorOf s) = admissibleOf s (captureCursorOf s) :=
    h.ownWork.field fun u => admissibleOf u (captureCursorOf s)
  have htable : t.table = (recomputeCursor s).table := h.ownWork.field State.table
  refine ⟨h.ownWork.field activeProfile, ?_, ?_⟩
  · rw [htable, hcursor]; rfl
  · rw [htable, hcursor, hadmissible]; rfl

/-! ### SELECT PROFILE (R28) -/

theorem exec_selectProfile (s : State) : exec .selectProfile s = runOrder s .selectProfile selectProfileRule := rfl

theorem selectProfileRule_no_slot {o : OrderRecord} (img : List Byte) (s : State) (h : 4 ≤ field o.params 0 1) :
    selectProfileRule o img s = (s, .badParam) :=
  dif_neg (Nat.not_lt.mpr h)

theorem selectProfileRule_slot {o : OrderRecord} {n : Fin 4} (img : List Byte) (s : State) (hn : field o.params 0 1 = n.val) :
    selectProfileRule o img s =
      if (s.table.profiles.get n).isSome then (refreshCursor { s with table := { s.table with active := n } }, .done)
      else (s, .badParam) := by
  have hlt : field o.params 0 1 < 4 := hn ▸ n.isLt
  obtain rfl : n = ⟨field o.params 0 1, hlt⟩ := Fin.ext hn.symm
  exact dif_pos hlt

/-- Settles O38: the valid slot becomes active, and only recomputing the cursor follows. -/
theorem selectProfileMakesActive : Obligations.SelectProfileMakesActive := by
  unfold Obligations.SelectProfileMakesActive
  intro s o img hd
  rw [exec_selectProfile]
  refine ⟨fun hslot => runOrder_unchanged hd (selectProfileRule_no_slot img s hslot), fun n hn hinvalid => ?_,
    fun n p hn hvalid => ?_⟩
  · exact runOrder_unchanged hd (by simp [selectProfileRule_slot img s hn, hinvalid])
  · have hrule : selectProfileRule o img s =
        (refreshCursor { s with table := { s.table with active := n } }, .done) := by
      simp [selectProfileRule_slot img s hn, hvalid]
    have hreports := (refreshCursor_reports { s with table := { s.table with active := n } }).owing (u := s)
    obtain ⟨hactive, hcursor, hadmissible⟩ := hreports.cursor_fields
    refine ⟨_, by rw [runOrder_dispatched _ hd, hrule], hactive.trans hvalid, hcursor, hadmissible, ?_⟩
    have htable := hreports.ownWork.field State.table
    rw [htable]
    exact hreports

end Sys2Proof.Machine
end

section
/-! PROOFS. O47: LENS MESSAGE (R112). The rule checks its parameters first, then the lens, then the queue; an accepted message
reaches the arbiter, which leaves the memory port alone, so that the order owes no notice of its own (R169). -/

namespace Sys2Proof.Machine

/-! ### Rules that leave the waiting work alone -/

/-- A rule that adds no work to what waits owes no notice: the order is finished in the state the rule made. -/
theorem runOrder_work_kept {s t : State} {k : OrderKind} {o : OrderRecord} {img : List Byte} {st : OrderStatus}
    {f : OrderRecord → List Byte → State → State × OrderStatus} (hd : dispatchedOrder s k = some (o, img))
    (hf : f o img s = (t, st)) (hwork : t.port.work = s.port.work) : runOrder s k f = .next (finishOrder t o st) := by
  rw [runOrder_dispatched f hd, hf, owingSince_work hwork]

@[simp] theorem arbitrate_port (s : State) : (arbitrate s).port = s.port := by
  rw [arbitrate_lens]

/-! ### LENS MESSAGE (R112) -/

theorem exec_lensMessage (s : State) : exec .lensMessage s = runOrder s .lensMessage lensMessageOrder := rfl

/-- The entry that a LENS MESSAGE order puts into the message queue. -/
def messageOf (o : OrderRecord) : LensMessage :=
  { tag := o.tag, kind := BitVec.ofNat 8 (field o.params 0 1),
    data := padTo (field o.params 1 1) ((o.params.drop 2).take (field o.params 1 1)) }

/-- A message joins the tail of the queue. -/
def State.queueMessage (s : State) (m : LensMessage) : State :=
  { s with lens := { s.lens with messages := s.lens.messages ++ [m] } }

@[simp] theorem State.queueMessage_port (s : State) (m : LensMessage) : (s.queueMessage m).port = s.port := rfl

section
variable {s : State} {o : OrderRecord} (img : List Byte)

theorem lensMessageOrder_badParam (h : field o.params 0 1 < 0x40 ∨ 0x7F < field o.params 0 1 ∨ 8 < field o.params 1 1) :
    lensMessageOrder o img s = (s, .badParam) :=
  if_pos h

/-- With kind and length in range, the rule turns to the lens and then to the queue. -/
theorem lensMessageOrder_params (hlow : 0x40 ≤ field o.params 0 1) (hhigh : field o.params 0 1 ≤ 0x7F)
    (hlen : field o.params 1 1 ≤ 8) :
    lensMessageOrder o img s =
      if s.lens.state ≠ .ready then (s, .noLens)
      else if 8 ≤ s.lens.messages.length then (s, .full)
      else (arbitrate (s.queueMessage (messageOf o)), .accepted) :=
  if_neg (by omega)

end

/-- Settles O47: the refusals leave the state to `finishOrder` as it was, and an accepted message leaves it as the arbiter did. -/
theorem lensMessageQueued : Obligations.LensMessageQueued := by
  unfold Obligations.LensMessageQueued
  intro s o img hd
  rw [exec_lensMessage]
  refine ⟨fun hbad => runOrder_unchanged hd (lensMessageOrder_badParam img hbad), fun hlow hhigh hlen => ?_⟩
  have hrule := lensMessageOrder_params (s := s) img hlow hhigh hlen
  refine ⟨fun hlens => ?noLens, fun hready hfull => ?full, fun hready hroom => ?accepted⟩
  case noLens => exact runOrder_unchanged hd (by rw [hrule, if_pos hlens])
  case full => exact runOrder_unchanged hd (by rw [hrule, if_neg (not_not_intro hready), if_pos hfull])
  case accepted =>
    have haccepted : lensMessageOrder o img s = (arbitrate (s.queueMessage (messageOf o)), .accepted) := by
      rw [hrule, if_neg (not_not_intro hready), if_neg (Nat.not_le.mpr hroom)]
    exact runOrder_work_kept hd haccepted (by simp)

end Sys2Proof.Machine
end

section
/-! PROOFS. What every operation of a step keeps: the laws of O4 to O9, stated as one relation between the state before an operation and
the state after it, which composes. This part gives the relation, how it follows for updates of single blocks, and the shared operations
of Machine/Ops.lean. -/

namespace Sys2Proof.Machine

set_option Elab.async false

/-! ### The relation -/

/-- R110: a request for a DRIVE exchange. -/
def LensRequest.isDrive : LensRequest → Bool
  | .drive _ _ => true
  | _ => false

/-- The exchange in flight in t, where it is a DRIVE exchange, was in flight in s already, or no shot is CAPTURING in t (R114). -/
def DriveLawful (s t : State) : Prop :=
  ∀ x, t.lens.exchange = some x → x.request.isDrive = true →
    (∃ y, s.lens.exchange = some y ∧ y.request = x.request ∧ y.since = x.since) ∨ ∀ w, (t.shot w).state ≠ .capturing

/-- What an operation that makes t of s keeps of the laws of O4 to O6, O8 and O9, when it opens no shot. -/
structure Kept (s t : State) : Prop where
  mem : MemoryCanonical s → MemoryCanonical t
  places : WithinPlaces s → WithinPlaces t
  indices : IndicesInRange s → IndicesInRange t
  pool : PoolSound s → PoolSound t
  shots : ∀ w, (t.shot w).state ≠ .free → (s.shot w).state ≠ .free ∧ (t.shot w).seq = (s.shot w).seq
  counter : t.table.seqCounter = s.table.seqCounter
  capturing : ∀ w, (t.shot w).state = .capturing → (s.shot w).state = .capturing
  drive : DriveLawful s t

/-- What an operation away from the Link Port keeps besides: the link and the taken requests stay, and, where `live` is set, so do
CAPTURING shots. -/
structure Keeps (live : Bool) (s t : State) : Prop extends Kept s t where
  link : t.link = s.link
  pass : t.port.pass = s.port.pass
  passFlight : t.port.passFlight = s.port.passFlight
  capturingStays : live = true → ∀ w, (s.shot w).state = .capturing → (t.shot w).state = .capturing

theorem DriveLawful.refl (s : State) : DriveLawful s s := fun x hx _ => .inl ⟨x, hx, rfl, rfl⟩

theorem DriveLawful.trans {s t u : State} (h : DriveLawful s t) (k : DriveLawful t u)
    (hc : ∀ w, (u.shot w).state = .capturing → (t.shot w).state = .capturing) : DriveLawful s u := by
  intro x hx hd
  obtain ⟨y, hy, hr, hs⟩ | hnone := k x hx hd
  · obtain ⟨z, hz, hr', hs'⟩ | hnone := h y hy (hr ▸ hd)
    · exact .inl ⟨z, hz, hr'.trans hr, hs'.trans hs⟩
    · exact .inr fun w hw => hnone w (hc w hw)
  · exact .inr hnone

/-- An operation that leaves the exchange in flight, but for its stop mark, begins none. -/
theorem DriveLawful.of_exchange {s t : State}
    (h : t.lens.exchange.map (fun x => (x.request, x.since)) = s.lens.exchange.map fun x => (x.request, x.since)) :
    DriveLawful s t := by
  intro x hx _
  rw [hx] at h
  obtain ⟨y, hy, e⟩ := Option.map_eq_some_iff.mp h.symm
  exact .inl ⟨y, hy, congrArg Prod.fst e, congrArg Prod.snd e⟩

theorem Kept.refl (s : State) : Kept s s := ⟨id, id, id, id, fun _ h => ⟨h, rfl⟩, rfl, fun _ => id, .refl s⟩

theorem Kept.trans {s t u : State} (h : Kept s t) (k : Kept t u) : Kept s u where
  mem := k.mem ∘ h.mem
  places := k.places ∘ h.places
  indices := k.indices ∘ h.indices
  pool := k.pool ∘ h.pool
  shots w hw := ⟨(h.shots w (k.shots w hw).1).1, (k.shots w hw).2.trans (h.shots w (k.shots w hw).1).2⟩
  counter := k.counter.trans h.counter
  capturing w hw := h.capturing w (k.capturing w hw)
  drive := h.drive.trans k.drive k.capturing

variable {b : Bool}

theorem Keeps.refl (s : State) : Keeps b s s := ⟨.refl s, rfl, rfl, rfl, fun _ _ => id⟩

theorem Keeps.trans {s t u : State} (h : Keeps b s t) (k : Keeps b t u) : Keeps b s u :=
  ⟨h.toKept.trans k.toKept, k.link.trans h.link, k.pass.trans h.pass, k.passFlight.trans h.passFlight,
    fun hb w hw => k.capturingStays hb w (h.capturingStays hb w hw)⟩

theorem Keeps.weaken {s t : State} (h : Keeps true s t) : Keeps b s t :=
  ⟨h.toKept, h.link, h.pass, h.passFlight, fun _ => h.capturingStays rfl⟩

theorem Keeps.ite {s t u : State} {c : Prop} [Decidable c] (ht : c → Keeps b s t) (hu : ¬c → Keeps b s u) :
    Keeps b s (if c then t else u) := by
  split
  · next h => exact ht h
  · next h => exact hu h

/-! ### Updates of single blocks -/

/-- The shots in t have the states and numbers they have in s, and hold no more. -/
theorem PoolSound.of_shots {s t : State} (hs : PoolSound s) (hpool : t.pool.first = s.pool.first)
    (hsize : t.pool.size = s.pool.size) (hfree : t.pool.free = s.pool.free) (hmaps : t.maps = s.maps)
    (hres : totalReservation t ≤ totalReservation s)
    (hshots : ∀ w, (t.shot w).state = .free →
      (s.shot w).state = .free ∧ ((s.shot w).copy = none → (t.shot w).copy = none) ∧
        (t.shot w).reservation ≤ (s.shot w).reservation) : PoolSound t := by
  obtain ⟨haccounted, hcovered, hnone⟩ := hs
  refine ⟨?_, ?_, fun w hw => ?_⟩
  · rw [hpool, hsize, hfree]
    simpa [allMapped, State.mapsOf, hmaps] using haccounted
  · rw [freeCount, hfree]
    exact hres.trans hcovered
  · obtain ⟨hw', hcopy, hle⟩ := hshots w hw
    obtain ⟨hm, hc, hr⟩ := hnone w hw'
    exact ⟨by rw [← hm, State.mapsOf, hmaps]; rfl, hcopy hc, by omega⟩

/-- An update of blocks that the laws do not speak of: it leaves memory, link and Memory Port, maps and shots as they are, as well as what
the laws say of pool, counter, ring indices and exchange, and lets no queue grow. -/
theorem Keeps.of_blocks {s t : State} (mem : t.mem = s.mem := by rfl) (port : t.port = s.port := by rfl)
    (link : t.link = s.link := by rfl) (maps : t.maps = s.maps := by rfl) (shots : t.shots = s.shots := by rfl)
    (first : t.pool.first = s.pool.first := by rfl) (size : t.pool.size = s.pool.size := by rfl)
    (free : t.pool.free = s.pool.free := by rfl) (counter : t.table.seqCounter = s.table.seqCounter := by rfl)
    (taken : t.order.taken = s.order.taken := by rfl)
    (post : s.order.post < 64 → t.order.post < 64 := by exact id)
    (write : t.notice.writeIndex = s.notice.writeIndex := by rfl)
    (number : t.notice.number = s.notice.number := by rfl)
    (consumed : s.notice.consumedIndex < 256 → t.notice.consumedIndex < 256 := by exact id)
    (fifo : t.taps.fifo.length ≤ max s.taps.fifo.length 128 := by exact le_max_left _ _)
    (messages : t.lens.messages.length ≤ max s.lens.messages.length 8 := by exact le_max_left _ _)
    (jobs : t.engine.queue.length ≤ max s.engine.queue.length 16 := by exact le_max_left _ _)
    (drive : DriveLawful s t := by exact .of_exchange rfl) : Keeps b s t where
  mem h := by rwa [MemoryCanonical, mem]
  places h := by
    obtain ⟨h1, h2, h3, h4, h5, h6⟩ := h
    refine ⟨by rwa [port], by rwa [port], by rwa [port], ?_, ?_, ?_⟩
    · exact fifo.trans (max_le h4 (le_refl _))
    · exact messages.trans (max_le h5 (le_refl _))
    · exact jobs.trans (max_le h6 (le_refl _))
  indices h := ⟨post h.post, taken ▸ h.taken, write ▸ h.write, consumed h.consumed, number ▸ h.number⟩
  pool h := h.of_shots first size free maps (by rw [totalReservation, shots, totalReservation])
    fun w hw => by simpa [State.shot, shots] using hw
  shots w hw := by simpa [State.shot, shots] using hw
  counter := counter
  capturing w hw := by simpa [State.shot, shots] using hw
  drive := drive
  link := link
  pass := by rw [port]
  passFlight := by rw [port]
  capturingStays _ w hw := by simpa [State.shot, shots] using hw

/-- The reservations that the shots hold, when one record is replaced. -/
theorem totalReservation_setShot (s : State) (w : Fin 64) (x : Shot) :
    totalReservation (s.setShot w x) + (s.shot w).reservation = totalReservation s + x.reservation := by
  have hlen : w.val < (s.shots.toList.map Shot.reservation).length := by simp
  have hget : (s.shots.toList.map Shot.reservation)[w.val] = (s.shot w).reservation := by
    simp [State.shot, Vector.get_eq_getElem]
  have hsplit := List.sum_set (s.shots.toList.map Shot.reservation) w.val x.reservation
  have hwhole := List.sum_set (s.shots.toList.map Shot.reservation) w.val (s.shot w).reservation
  rw [if_pos hlen] at hsplit hwhole
  rw [← hget, List.set_getElem_self, hget] at hwhole
  simp only [totalReservation, State.setShot_shots, Vector.toList_set, List.map_set]
  omega

/-- A record changed in place: it keeps its number and profile copy, and its state unless `live` is clear. -/
theorem setShot_keeps {s : State} {w : Fin 64} {x : Shot} (hfree : x.state = .free ↔ (s.shot w).state = .free)
    (hseq : x.seq = (s.shot w).seq) (hcopy : x.copy = (s.shot w).copy) (hres : x.reservation ≤ (s.shot w).reservation)
    (hcap : x.state = .capturing → (s.shot w).state = .capturing)
    (hlive : b = true → (s.shot w).state = .capturing → x.state = .capturing) : Keeps b s (s.setShot w x) where
  mem := id
  places := fun ⟨h1, h2, h3, h4, h5, h6⟩ => ⟨h1, h2, h3, h4, h5, h6⟩
  indices := fun ⟨h1, h2, h3, h4, h5⟩ => ⟨h1, h2, h3, h4, h5⟩
  pool h := by
    refine h.of_shots rfl rfl rfl rfl ?_ fun v hv => ?_
    · have := totalReservation_setShot s w x
      omega
    · obtain rfl | hne := eq_or_ne v w
      · rw [State.shot_setShot_same] at hv ⊢
        exact ⟨hfree.mp hv, fun hc => hcopy.trans hc, hres⟩
      · rw [State.shot_setShot_other _ _ _ _ hne] at hv ⊢
        exact ⟨hv, id, le_refl _⟩
  shots v hv := by
    obtain rfl | hne := eq_or_ne v w
    · rw [State.shot_setShot_same] at hv ⊢
      exact ⟨fun hf => hv (hfree.mpr hf), hseq⟩
    · rw [State.shot_setShot_other _ _ _ _ hne] at hv ⊢
      exact ⟨hv, rfl⟩
  counter := rfl
  capturing v hv := by
    obtain rfl | hne := eq_or_ne v w
    · rw [State.shot_setShot_same] at hv
      exact hcap hv
    · rwa [State.shot_setShot_other _ _ _ _ hne] at hv
  drive := .of_exchange rfl
  link := rfl
  pass := rfl
  passFlight := rfl
  capturingStays hb v hv := by
    obtain rfl | hne := eq_or_ne v w
    · rw [State.shot_setShot_same]
      exact hlive hb hv
    · rwa [State.shot_setShot_other _ _ _ _ hne]

/-- A change of fields of a record that the laws do not speak of. -/
theorem modShot_keeps {s : State} {w : Fin 64} {f : Shot → Shot} (hstate : ∀ x, (f x).state = x.state := by intro; rfl)
    (hseq : ∀ x, (f x).seq = x.seq := by intro; rfl) (hcopy : ∀ x, (f x).copy = x.copy := by intro; rfl)
    (hres : ∀ x, (f x).reservation ≤ x.reservation := by intro; exact le_refl _) : Keeps b s (s.modShot w f) :=
  setShot_keeps (by rw [hstate]) (hseq _) (hcopy _) (hres _) (by rw [hstate]; exact id) (fun _ h => by rwa [hstate])

end Sys2Proof.Machine
end

section
/-! PROOFS. The shared operations of Machine/Ops.lean keep the laws: the part's own work, the pool's counts, and the fault records. -/

namespace Sys2Proof.Machine

set_option Elab.async false

variable {b : Bool}

/-! ### The part's own work -/

/-- Own work keeps the laws when it keeps the memory's form, and its queues and indices within their bounds. -/
theorem Keeps.of_ownWork {s t : State} (h : OnlyOwnWork s t) (mem : MemoryCanonical s → MemoryCanonical t)
    (writes : t.port.writes.length ≤ max s.port.writes.length 32) (reads : t.port.reads.length ≤ max s.port.reads.length 16)
    (indices : IndicesInRange s → IndicesInRange t) : Keeps b s t := by
  have hshots : t.shots = s.shots := h.field State.shots
  have hshot : ∀ w, t.shot w = s.shot w := fun w => by rw [State.shot, hshots]; rfl
  have hpass : t.port.pass = s.port.pass := by
    have e := congrArg MemoryPort.pass h.port
    exact e
  have hflight : t.port.passFlight = s.port.passFlight := by
    have e := congrArg MemoryPort.passFlight h.port
    exact e
  have hpool : t.pool = s.pool := h.field State.pool
  refine ⟨⟨mem, ?_, indices, ?_, ?_, ?_, ?_, ?_⟩, h.field State.link, hpass, hflight, ?_⟩
  · rintro ⟨h1, h2, h3, h4, h5, h6⟩
    refine ⟨by rwa [hpass], writes.trans (max_le h2 (le_refl _)), reads.trans (max_le h3 (le_refl _)), ?_, ?_, ?_⟩
    · rwa [h.field State.taps]
    · rwa [h.field State.lens]
    · rwa [h.field State.engine]
  · intro hs
    refine hs.of_shots (by rw [hpool]) (by rw [hpool]) (by rw [hpool]) (h.field State.maps) ?_ fun w hw => ?_
    · rw [totalReservation, hshots, totalReservation]
    · rw [hshot] at hw ⊢
      exact ⟨hw, id, le_refl _⟩
  · exact fun w hw => by rw [hshot] at hw ⊢; exact ⟨hw, rfl⟩
  · rw [h.field State.table]
  · exact fun w hw => by rwa [hshot] at hw
  · exact .of_exchange (by rw [h.field State.lens])
  · exact fun _ w hw => by rwa [hshot]

theorem enterWrite_keeps {s : State} (w : Nat × List Byte × BitVec 64) (h : writeRoom s = true) :
    Keeps b s (enterWrite s w) := by
  refine .of_ownWork (enterWrite_ownWork s w) (Memory.wf_writeLine _ _ _ _) ?_ (le_max_left _ _)
    fun ⟨h1, h2, h3, h4, h5⟩ => ⟨h1, h2, h3, h4, h5⟩
  have hroom : s.port.writes.length < 32 := of_decide_eq_true h
  simp only [enterWrite, List.length_append, List.length_singleton]
  omega

/-- Which work waits, and which reads are held, is no matter of the laws. -/
theorem waiting_keeps (s : State) (ws : List OwnWork) (rs : List (ReadPurpose × Nat)) :
    Keeps b s { s with port := { s.port with work := ws, heldReads := rs } } :=
  .of_ownWork ⟨rfl, rfl, rfl, rfl⟩ id (le_max_left _ _) (le_max_left _ _) fun ⟨h1, h2, h3, h4, h5⟩ => ⟨h1, h2, h3, h4, h5⟩

theorem work_keeps (s : State) (ws : List OwnWork) : Keeps b s { s with port := { s.port with work := ws } } :=
  waiting_keeps s ws s.port.heldReads

theorem enterRead_keeps {s : State} (p : ReadPurpose) (a : Nat) (h : s.port.reads.length < 16) : Keeps b s (enterRead s p a) := by
  refine .of_ownWork ⟨rfl, rfl, rfl, rfl⟩ id (le_max_left _ _) ?_ fun ⟨h1, h2, h3, h4, h5⟩ => ⟨h1, h2, h3, h4, h5⟩
  simp only [enterRead, List.length_append, List.length_singleton]
  omega

theorem issueRead_keeps (s : State) (p : ReadPurpose) (a : Nat) : Keeps b s (issueRead s p a) := by
  obtain ⟨-, hroom, h⟩ | ⟨-, h⟩ := issueRead_cases s p a <;> rw [h]
  · exact enterRead_keeps p a hroom
  · exact waiting_keeps s s.port.work _

/-- The Notice Unit's bookkeeping at a written notice. -/
theorem writeNotice_keeps {s : State} (n : Notice) (h : writeRoom s = true) : Keeps b s (writeNotice s n) := by
  refine (enterWrite_keeps (noticeWrite s s.notice.writeIndex (noticeBytes n s.notice.number)) h).trans ?_
  refine .of_ownWork ⟨rfl, rfl, rfl, rfl⟩ id (le_max_left _ _) (le_max_left _ _) fun ⟨h1, h2, h3, h4, h5⟩ => ?_
  exact ⟨h1, h2, Nat.mod_lt _ (by omega), h4, Nat.mod_lt _ (by omega)⟩

theorem countDrop_keeps (s : State) (n : Notice) : Keeps b s (countDrop s n) :=
  .of_ownWork ⟨rfl, rfl, rfl, rfl⟩ id (le_max_left _ _) (le_max_left _ _) fun ⟨h1, h2, h3, h4, h5⟩ => ⟨h1, h2, h3, h4, h5⟩

theorem dropNotice_keeps (s : State) (n : Notice) : Keeps b s (dropNotice s n) :=
  (countDrop_keeps s n).trans (work_keeps _ _)

theorem writeOverflow_keeps {s : State} (h : writeRoom s = true) : Keeps b s (writeOverflow s) :=
  Keeps.trans (t := { s with notice := { s.notice with overflow := 0 } }) .of_blocks (writeNotice_keeps _ h)

theorem evaluateAttention_keeps (s : State) : Keeps b s (evaluateAttention s) := by
  obtain ⟨c, l, p, h⟩ := evaluateAttention_cases s
  rw [h]
  exact .of_blocks

theorem takeOrder_keeps (s : State) : Keeps b s (takeOrder s) := by
  unfold takeOrder
  refine .ite (fun _ => ?_) fun _ => .refl s
  exact Keeps.trans (t := { s with order := { s.order with phase := .fetching } }) .of_blocks (issueRead_keeps _ _ _)

theorem completeOrder_keeps {s : State} (st : OrderStatus) (h : writeRoom s = true) : Keeps b s (completeOrder s st) := by
  unfold completeOrder
  split
  · refine (enterWrite_keeps (statusWrite s s.order.taken st) h).trans ?_
    refine .of_ownWork ⟨rfl, rfl, rfl, rfl⟩ id (le_max_left _ _) (le_max_left _ _) fun ⟨h1, h2, h3, h4, h5⟩ => ?_
    exact ⟨h1, Nat.mod_lt _ (by omega), h3, h4, h5⟩
  · exact .refl s

theorem runWork_keeps {w : OwnWork} {s t : State} (h : runWork w s = some t) : Keeps b s t := by
  cases w with
  | line l =>
    obtain ⟨hroom, ht⟩ := Option.ite_none_right_eq_some.mp h
    cases ht
    exact enterWrite_keeps _ hroom
  | notice n _ =>
    obtain ⟨-, rfl⟩ | ⟨-, hroom, rfl | ⟨-, rfl⟩⟩ := takeNotice_cases s t n h
    · exact dropNotice_keeps s n
    · exact writeNotice_keeps n hroom
    · exact (work_keeps s _).trans (writeOverflow_keeps hroom)
  | overflow =>
    obtain ⟨hroom, ht⟩ := Option.ite_none_right_eq_some.mp h
    cases ht
    exact writeOverflow_keeps hroom
  | attention => cases h; exact evaluateAttention_keeps s
  | orderStatus st _ =>
    obtain ⟨hroom, ht⟩ := Option.ite_none_right_eq_some.mp h
    cases ht
    exact completeOrder_keeps st hroom
  | nextOrder =>
    cases h
    exact Keeps.trans (t := { s with order := { s.order with phase := .idle } }) .of_blocks (takeOrder_keeps _)

theorem settle_keeps (n : Nat) (s : State) : Keeps b s (settle n s) := by
  induction n generalizing s with
  | zero => exact .refl s
  | succ n ih =>
    simp only [settle]
    split
    · exact .refl s
    · split
      · exact .refl s
      · next h => exact ((work_keeps s _).trans (runWork_keeps h)).trans (ih _)

theorem comeUp_keeps (s : State) (w : OwnWork) : Keeps b s (comeUp s w) := by
  obtain ⟨ws, h | ⟨n, _, -, h⟩⟩ := comeUp_cases s w <;> rw [h]
  · exact work_keeps s ws
  · exact (countDrop_keeps s n).trans (work_keeps _ ws)

theorem bringUp_keeps (n : Nat) (s : State) : Keeps b s (bringUp n s) := by
  induction n generalizing s with
  | zero => exact .refl s
  | succ n ih =>
    simp only [bringUp]
    split
    · exact .refl s
    · exact ((work_keeps s _).trans (comeUp_keeps _ _)).trans (ih _)

theorem settleFree_keeps (n : Nat) (s : State) : Keeps b s (settleFree n s) := by
  induction n generalizing s with
  | zero => exact .refl s
  | succ n ih =>
    simp only [settleFree]
    split
    · exact .refl s
    · exact .ite (fun _ => (settle_keeps 1 s).trans (ih _)) fun _ => .refl s

theorem goOn_keeps (s : State) : Keeps b s (goOn s) := (bringUp_keeps _ s).trans (settleFree_keeps _ _)

theorem emit_keeps (s : State) (w : OwnWork) : Keeps b s (emit s w) := by
  unfold emit joinWork
  refine .ite (fun _ => ?_) fun _ => .ite (fun _ => work_keeps s _) fun _ => comeUp_keeps s w
  exact ((work_keeps s _).trans (settle_keeps 8 _)).trans (goOn_keeps _)

theorem emitLine_keeps (s : State) (l : OwnLine) : Keeps b s (emitLine s l) :=
  .ite (fun _ => .refl s) fun _ => emit_keeps s _

theorem hand_keeps (s : State) (n : Notice) : Keeps b s (hand s n) := emit_keeps s _

theorem publish_keeps (s : State) (n : Fin 9) : Keeps b s (publish s n) := emitLine_keeps s _

/-- Keeping the laws carries over to one operation after another. -/
theorem foldl_keeps {α : Type} {f : State → α → State} (h : ∀ s a, Keeps b s (f s a)) (s : State) (as : List α) :
    Keeps b s (as.foldl f s) := by
  induction as generalizing s with
  | nil => exact .refl s
  | cons a as ih => exact (h s a).trans (ih _)

theorem mirror_keeps (s : State) (w : Fin 64) (ls : List (Fin 64)) : Keeps b s (mirror s w ls) :=
  foldl_keeps (fun s _ => emitLine_keeps s _) s ls

theorem mirrorChanged_keeps (s : State) (w : Fin 64) (old : Shot) : Keeps b s (mirrorChanged s w old) := mirror_keeps s w _

theorem finishOrder_keeps (s : State) (o : OrderRecord) (st : OrderStatus) : Keeps b s (finishOrder s o st) :=
  Keeps.trans (t := { s with order := { s.order with phase := .completing o } }) .of_blocks (emit_keeps _ _)

theorem owingSince_keeps (s t : State) : Keeps b s (s.owingSince t) := work_keeps s _

/-! ### The capture cursor and the pool's counts -/

theorem recomputeCursor_keeps (s : State) : Keeps b s (recomputeCursor s) := .of_blocks

theorem refreshCursor_keeps (s : State) : Keeps b s (refreshCursor s) :=
  .ite (fun _ => .refl s) fun _ => (recomputeCursor_keeps s).trans (publish_keeps _ 1)

theorem evalArmed_keeps (s : State) : Keeps b s (evalArmed s) :=
  .ite (fun _ => Keeps.trans (t := { s with pool := { s.pool with armed := false } }) .of_blocks (hand_keeps _ _))
    fun _ => .ite (fun _ => .of_blocks) fun _ => .refl s

theorem publishPool_keeps (r s : State) : Keeps b s (publishPool r s) := .ite (fun _ => .refl s) fun _ => publish_keeps s 2

theorem poolCounted_keeps (r s : State) : Keeps b s (poolCounted r s) :=
  .ite (fun _ => publishPool_keeps r s) fun _ => (publishPool_keeps r s).trans (evalArmed_keeps _)

theorem poolChanged_keeps (r s : State) : Keeps b s (poolChanged r s) :=
  .ite (fun _ => poolCounted_keeps r s) fun _ => (poolCounted_keeps r s).trans (refreshCursor_keeps _)

theorem returnReservation_keeps (s : State) (w : Fin 64) (n : Nat) : Keeps b s (returnReservation s w n) :=
  .ite (fun _ => .refl s) fun _ =>
    ((modShot_keeps (hres := fun _ => Nat.sub_le _ _)).trans (mirror_keeps _ w [1])).trans (poolChanged_keeps s _)

/-- R15, R17: a reservation is taken for a shot within what is available. -/
theorem reserve_keeps {s : State} {w : Fin 64} {n : Nat} (hw : (s.shot w).state ≠ .free) (hn : n ≤ available s) :
    Keeps b s (s.modShot w fun x => { x with reservation := x.reservation + n }) where
  mem := id
  places := fun ⟨h1, h2, h3, h4, h5, h6⟩ => ⟨h1, h2, h3, h4, h5, h6⟩
  indices := fun ⟨h1, h2, h3, h4, h5⟩ => ⟨h1, h2, h3, h4, h5⟩
  pool := fun ⟨haccounted, hcovered, hnone⟩ => by
    refine ⟨haccounted, ?_, fun v hv => ?_⟩
    · have hsum := totalReservation_setShot s w { s.shot w with reservation := (s.shot w).reservation + n }
      simp only [available, freeCount] at hn hcovered
      simp only [freeCount, State.modShot, State.setShot_pool] at hsum ⊢
      omega
    · obtain rfl | hne := eq_or_ne v w
      · rw [State.shot_modShot_same] at hv
        exact absurd hv hw
      · rw [State.shot_modShot_other _ _ _ _ hne] at hv ⊢
        exact hnone v hv
  shots v hv := by
    obtain rfl | hne := eq_or_ne v w
    · rw [State.shot_modShot_same] at hv ⊢
      exact ⟨hv, rfl⟩
    · rw [State.shot_modShot_other _ _ _ _ hne] at hv ⊢
      exact ⟨hv, rfl⟩
  counter := rfl
  capturing v hv := by
    obtain rfl | hne := eq_or_ne v w
    · rwa [State.shot_modShot_same] at hv
    · rwa [State.shot_modShot_other _ _ _ _ hne] at hv
  drive := .of_exchange rfl
  link := rfl
  pass := rfl
  passFlight := rfl
  capturingStays _ v hv := by
    obtain rfl | hne := eq_or_ne v w
    · rwa [State.shot_modShot_same]
    · rwa [State.shot_modShot_other _ _ _ _ hne]

theorem takeReservation_keeps {s : State} {w : Fin 64} {n : Nat} (hw : (s.shot w).state ≠ .free) (hn : n ≤ available s) :
    Keeps b s (takeReservation s w n) :=
  .ite (fun _ => .refl s) fun _ => ((reserve_keeps hw hn).trans (mirror_keeps _ w [1])).trans (poolChanged_keeps s _)

/-! ### Granules -/

/-- Filling an empty place of a list of entries adds its granule to those listed. -/
theorem filterMap_set_none {l : List (Option Nat)} {g : Nat} (n : Nat) (h : l[g]? = some none) :
    ((l.set g (some n)).filterMap id).Perm (n :: l.filterMap id) := by
  induction l generalizing g with
  | nil => simp at h
  | cons a l ih =>
    cases g with
    | zero =>
      obtain rfl : a = none := by simpa using h
      simp
    | succ g =>
      have hg : l[g]? = some none := by simpa using h
      cases a with
      | none => simpa using ih hg
      | some m => simpa using ((ih hg).cons m).trans (List.Perm.swap n m _)

/-- The mapped granules, those of window w apart. -/
theorem allMapped_split (s : State) (w : Fin 64) :
    (allMapped s).Perm (mappedGranules (s.mapsOf w) ++
      ((List.finRange 64).erase w).flatMap fun v => mappedGranules (s.mapsOf v)) :=
  (List.perm_cons_erase (List.mem_finRange w)).flatMap_right _

/-- The granules of the other windows are those they were. -/
theorem otherMapped_congr {s t : State} {w : Fin 64} (h : ∀ v, v ≠ w → t.mapsOf v = s.mapsOf v) :
    ((List.finRange 64).erase w).flatMap (fun v => mappedGranules (t.mapsOf v)) =
      ((List.finRange 64).erase w).flatMap fun v => mappedGranules (s.mapsOf v) := by
  refine List.flatMap_congr fun v hv => ?_
  rw [h v fun hvw => (List.nodup_finRange 64).not_mem_erase (hvw ▸ hv)]

theorem mapsOf_set_same (s : State) (w : Fin 64) (m : WindowMaps) : ({ s with maps := s.maps.set w.val m } : State).mapsOf w = m := by
  simp [State.mapsOf, Vector.get_eq_getElem]

theorem mapsOf_set_other (s : State) {w v : Fin 64} (m : WindowMaps) (h : v ≠ w) :
    ({ s with maps := s.maps.set w.val m } : State).mapsOf v = s.mapsOf v := by
  have : w.val ≠ v.val := fun e => h (Fin.ext e.symm)
  simp [State.mapsOf, Vector.get_eq_getElem, this]

/-- R6: an allocation, before it is published: the head of the free queue has moved into the maps of window w against the shot's
reservation. -/
theorem allocate_keeps {s t : State} {w : Fin 64} {n : Nat} {rest : List Nat} {r : Nat} {m : WindowMaps} {x : Shot}
    (ht : t = { s with pool := { s.pool with free := rest }, maps := s.maps.set w.val m, shots := s.shots.set w.val x })
    (hm : (mappedGranules m).Perm (n :: mappedGranules (s.mapsOf w))) (hfree : s.pool.free = n :: rest)
    (hres : (s.shot w).reservation = r + 1) (hx : x.state = (s.shot w).state) (hseq : x.seq = (s.shot w).seq)
    (hxr : x.reservation = r) :
    Keeps b s t := by
  have hsame : t.shot w = x := by rw [ht]; simp [State.shot, Vector.get_eq_getElem]
  have hother : ∀ v, v ≠ w → t.shot v = s.shot v := fun v hv => by rw [ht]; exact s.shot_setShot_other w v x hv
  have hmaps : t.mapsOf w = m := by rw [ht]; exact mapsOf_set_same _ _ _
  have hmapsOther : ∀ v, v ≠ w → t.mapsOf v = s.mapsOf v := fun v hv => by rw [ht]; exact mapsOf_set_other s m hv
  have hstate : ∀ v, (t.shot v).state = (s.shot v).state ∧ (t.shot v).seq = (s.shot v).seq := fun v => by
    obtain rfl | hv := eq_or_ne v w
    · rw [hsame]; exact ⟨hx, hseq⟩
    · rw [hother v hv]; exact ⟨rfl, rfl⟩
  refine ⟨⟨by rw [ht]; exact id, ?_, ?_, ?_, fun v hv => ⟨(hstate v).1 ▸ hv, (hstate v).2⟩, by rw [ht],
    fun v hv => (hstate v).1 ▸ hv, .of_exchange (by rw [ht])⟩, by rw [ht], by rw [ht], by rw [ht],
    fun _ v hv => (hstate v).1.trans hv⟩
  · rintro ⟨h1, h2, h3, h4, h5, h6⟩
    rw [ht]
    exact ⟨h1, h2, h3, h4, h5, h6⟩
  · rintro ⟨h1, h2, h3, h4, h5⟩
    rw [ht]
    exact ⟨h1, h2, h3, h4, h5⟩
  · rintro ⟨haccounted, hcovered, hnone⟩
    refine ⟨?_, ?_, fun v hv => ?_⟩
    · have hpool : t.pool.free = rest ∧ t.pool.size = s.pool.size ∧ t.pool.first = s.pool.first := by
        rw [ht]; exact ⟨rfl, rfl, rfl⟩
      rw [hpool.1, hpool.2.1, hpool.2.2]
      refine List.Perm.trans ?_ haccounted
      rw [hfree]
      have hsplit := allMapped_split t w
      rw [hmaps, otherMapped_congr hmapsOther] at hsplit
      have hmoved : (allMapped t).Perm (n :: allMapped s) :=
        hsplit.trans ((hm.append_right _).trans ((allMapped_split s w).symm.cons n))
      exact (hmoved.append_left rest).trans List.perm_middle
    · have hsum := totalReservation_setShot s w x
      have htot : totalReservation t = totalReservation (s.setShot w x) := by rw [ht]; rfl
      have hcount : freeCount t = rest.length := by rw [ht]; rfl
      rw [freeCount, hfree, List.length_cons] at hcovered
      rw [htot, hcount]
      omega
    · rw [(hstate v).1] at hv
      have hvw : v ≠ w := by
        rintro rfl
        have := (hnone v hv).2.2
        omega
      rw [hother v hvw, hmapsOther v hvw]
      exact hnone v hv

theorem vector_set_none {k : Nat} {v : Vector (Option Nat) k} {g : Nat} (n : Nat) (h : v[g]? = some none) :
    ((v.setIfInBounds g (some n)).toList.filterMap id).Perm (n :: v.toList.filterMap id) := by
  rw [Vector.toList_setIfInBounds]
  exact filterMap_set_none n (by rw [← h]; simp)

/-- Raw entry g of window w filled with granule n, before it is published: `rest` is left in the free queue and r of the reservation. -/
def rawFilled (s : State) (w : Fin 64) (g n : Nat) (rest : List Nat) (r : Nat) : State :=
  { s with
    pool := { s.pool with free := rest }
    maps := s.maps.set w.val { s.mapsOf w with raw := (s.mapsOf w).raw.setIfInBounds g (some n) }
    shots := s.shots.set w.val { s.shot w with reservation := r, rawMapped := (s.shot w).rawMapped + 1 } }

/-- The same for preview entry g. -/
def previewFilled (s : State) (w : Fin 64) (g n : Nat) (rest : List Nat) (r : Nat) : State :=
  { s with
    pool := { s.pool with free := rest }
    maps := s.maps.set w.val { s.mapsOf w with preview := (s.mapsOf w).preview.setIfInBounds g (some n) }
    shots := s.shots.set w.val { s.shot w with reservation := r, previewMapped := (s.shot w).previewMapped + 1 } }

/-- R6: when an allocation is made, and what it makes. -/
theorem allocateRaw_eq_some {s t : State} {w : Fin 64} {g : Nat} :
    allocateRaw s w g = some t ↔ ∃ n rest r, (s.mapsOf w).raw[g]? = some none ∧ s.pool.free = n :: rest ∧
      (s.shot w).reservation = r + 1 ∧ t = poolChanged s (mirror (rawFilled s w g n rest r) w [1]) := by
  simp only [allocateRaw]
  split
  · next n rest r hentry hfree hres =>
    simp only [Option.some.injEq, hentry, hfree, hres, List.cons.injEq, Nat.succ_eq_add_one, Nat.add_right_cancel_iff, true_and]
    constructor
    · exact fun h => ⟨n, rest, r, ⟨rfl, rfl⟩, rfl, h.symm⟩
    · rintro ⟨_, _, _, ⟨rfl, rfl⟩, rfl, h⟩
      exact h.symm
  · next hno =>
    simp only [reduceCtorEq, false_iff]
    rintro ⟨n, rest, r, hentry, hfree, hres, -⟩
    exact hno n rest r hentry hfree hres

theorem allocatePreview_eq_some {s t : State} {w : Fin 64} {g : Nat} :
    allocatePreview s w g = some t ↔ ∃ n rest r, (s.mapsOf w).preview[g]? = some none ∧ s.pool.free = n :: rest ∧
      (s.shot w).reservation = r + 1 ∧ t = poolChanged s (mirror (previewFilled s w g n rest r) w [1]) := by
  simp only [allocatePreview]
  split
  · next n rest r hentry hfree hres =>
    simp only [Option.some.injEq, hentry, hfree, hres, List.cons.injEq, Nat.succ_eq_add_one, Nat.add_right_cancel_iff, true_and]
    constructor
    · exact fun h => ⟨n, rest, r, ⟨rfl, rfl⟩, rfl, h.symm⟩
    · rintro ⟨_, _, _, ⟨rfl, rfl⟩, rfl, h⟩
      exact h.symm
  · next hno =>
    simp only [reduceCtorEq, false_iff]
    rintro ⟨n, rest, r, hentry, hfree, hres, -⟩
    exact hno n rest r hentry hfree hres

theorem allocateRaw_keeps {s t : State} {w : Fin 64} {g : Nat} (h : allocateRaw s w g = some t) : Keeps b s t := by
  obtain ⟨n, rest, r, hentry, hfree, hres, rfl⟩ := allocateRaw_eq_some.mp h
  have hfill : Keeps b s (rawFilled s w g n rest r) :=
    allocate_keeps rfl ((vector_set_none n hentry).append_right _) hfree hres rfl rfl rfl
  exact (hfill.trans (mirror_keeps _ w [1])).trans (poolChanged_keeps s _)

theorem allocatePreview_keeps {s t : State} {w : Fin 64} {g : Nat} (h : allocatePreview s w g = some t) : Keeps b s t := by
  obtain ⟨n, rest, r, hentry, hfree, hres, rfl⟩ := allocatePreview_eq_some.mp h
  have hfill : Keeps b s (previewFilled s w g n rest r) :=
    allocate_keeps rfl (((vector_set_none n hentry).append_left _).trans List.perm_middle) hfree hres rfl rfl rfl
  exact (hfill.trans (mirror_keeps _ w [1])).trans (poolChanged_keeps s _)

/-! ### Fault records -/

theorem plainFault_keeps (s : State) (c : SourceClass) (k : FaultKind) (a : Nat) : Keeps b s (plainFault s c k a) := by
  unfold plainFault
  refine Keeps.trans (t := { s with plainFaults := s.plainFaults.set c (hold32 (s.plainFaults.get c + 1)) }) .of_blocks ?_
  refine Keeps.trans (.ite (fun _ => publish_keeps _ 7) fun _ => .refl _) (.ite (fun _ => ?_) fun _ => .refl _)
  refine Keeps.trans ?_ (hand_keeps _ _)
  exact .of_blocks

theorem shotFault_keeps (s : State) (w : Fin 64) (c : SourceClass) (k : FaultKind) (o : Nat) (p : Bool) :
    Keeps b s (shotFault s w c k o p) := by
  unfold shotFault
  refine Keeps.trans (Keeps.trans ?_ (.ite (fun _ => mirror_keeps _ w [6]) fun _ => .refl _))
    (.ite (fun _ => hand_keeps _ _) fun _ => .refl _)
  exact modShot_keeps

end Sys2Proof.Machine
end

section
/-! PROOFS. The Tether Queue, the release of a shot and the Development Engine keep the laws. -/

namespace Sys2Proof.Machine

set_option Elab.async false

variable {b : Bool}

/-! ### The Tether Queue -/

theorem setTetherQueue_keeps (s : State) (q : List TetherEntry) : Keeps b s (s.setTetherQueue q) := .of_blocks

theorem refreshHead_keeps (s : State) : Keeps b s (refreshHead s) := by
  unfold refreshHead
  refine .ite (fun _ => .refl s) fun _ => ?_
  have hhead : Keeps b s (publish { s with tether := { s.tether with head := tetherHeadOf s } } 4) := by
    refine Keeps.trans ?_ (publish_keeps _ 4)
    exact .of_blocks
  dsimp only
  split
  · exact hhead.trans (hand_keeps _ _)
  · exact hhead

theorem refreshReady_keeps (s : State) (w : Fin 64) : Keeps b s (refreshReady s w) :=
  (setTetherQueue_keeps s _).trans (refreshHead_keeps _)

theorem joinQueue_keeps (s : State) (w : Fin 64) (send : SendWhat) (forced : Bool) : Keeps b s (joinQueue s w send forced) := by
  unfold joinQueue
  refine Keeps.trans (Keeps.trans (Keeps.trans ?_ (mirror_keeps _ w [5])) (setTetherQueue_keeps _ _)) (refreshHead_keeps _)
  exact modShot_keeps

theorem evaluateShot_keeps (s : State) (w : Fin 64) : Keeps b s (evaluateShot s w) := by
  unfold evaluateShot
  split
  · refine Keeps.trans ?_ (mirror_keeps _ w [5])
    exact modShot_keeps
  · exact joinQueue_keeps s w _ false

theorem evaluateUndecided_keeps (s : State) (w : Fin 64) : Keeps b s (evaluateUndecided s w) :=
  .ite (fun _ => evaluateShot_keeps s w) fun _ => .refl s

/-! ### Release -/

/-- R18, R44: a release, before it is published. -/
def granulesFreed (s : State) (w : Fin 64) : State :=
  { s with
    pool := { s.pool with free := s.pool.free ++ mappedGranules (s.mapsOf w) }
    maps := s.maps.set w.val emptyMaps
    shots := s.shots.set w.val freeShot }

theorem releaseShot_eq (s : State) (w : Fin 64) (cause : ReleaseCause) :
    releaseShot s w cause =
      hand (refreshCursor (poolChanged s (mirror (granulesFreed s w) w wholeRecord)))
        (shotNotice s w .shotReleased 0 (byte1 cause.code ++ leBytes 2 (mappedGranules (s.mapsOf w)).length)) := rfl

theorem mappedGranules_emptyMaps : mappedGranules emptyMaps = [] := by
  simp [mappedGranules, emptyMaps]

@[simp] theorem granulesFreed_shot_same (s : State) (w : Fin 64) : (granulesFreed s w).shot w = freeShot := s.shot_setShot_same w freeShot

theorem granulesFreed_shot_other (s : State) {w v : Fin 64} (h : v ≠ w) : (granulesFreed s w).shot v = s.shot v :=
  s.shot_setShot_other w v freeShot h

@[simp] theorem granulesFreed_mapsOf_same (s : State) (w : Fin 64) : (granulesFreed s w).mapsOf w = emptyMaps := mapsOf_set_same s w _

theorem granulesFreed_mapsOf_other (s : State) {w v : Fin 64} (h : v ≠ w) : (granulesFreed s w).mapsOf v = s.mapsOf v :=
  mapsOf_set_other s _ h

theorem granulesFreed_keeps {s : State} {w : Fin 64} (h : b = true → (s.shot w).state ≠ .capturing) :
    Keeps b s (granulesFreed s w) where
  mem := id
  places := fun ⟨h1, h2, h3, h4, h5, h6⟩ => ⟨h1, h2, h3, h4, h5, h6⟩
  indices := fun ⟨h1, h2, h3, h4, h5⟩ => ⟨h1, h2, h3, h4, h5⟩
  pool := fun ⟨haccounted, hcovered, hnone⟩ => by
    refine ⟨?_, ?_, fun v hv => ?_⟩
    · refine List.Perm.trans ?_ haccounted
      have hsplit := allMapped_split (granulesFreed s w) w
      rw [granulesFreed_mapsOf_same, mappedGranules_emptyMaps,
        otherMapped_congr fun v hv => granulesFreed_mapsOf_other s hv] at hsplit
      refine (hsplit.append_left _).trans ?_
      simp only [granulesFreed, List.nil_append, List.append_assoc]
      exact (allMapped_split s w).symm.append_left _
    · have hsum := totalReservation_setShot s w freeShot
      have htot : totalReservation (granulesFreed s w) = totalReservation (s.setShot w freeShot) := rfl
      have hzero : freeShot.reservation = 0 := rfl
      have hcount : freeCount (granulesFreed s w) = freeCount s + (mappedGranules (s.mapsOf w)).length := List.length_append
      omega
    · obtain rfl | hne := eq_or_ne v w
      · rw [granulesFreed_shot_same, granulesFreed_mapsOf_same]
        exact ⟨rfl, rfl, rfl⟩
      · rw [granulesFreed_shot_other s hne] at hv ⊢
        rw [granulesFreed_mapsOf_other s hne]
        exact hnone v hv
  shots v hv := by
    obtain rfl | hne := eq_or_ne v w
    · rw [granulesFreed_shot_same] at hv
      exact absurd rfl hv
    · rw [granulesFreed_shot_other s hne] at hv ⊢
      exact ⟨hv, rfl⟩
  counter := rfl
  capturing v hv := by
    obtain rfl | hne := eq_or_ne v w
    · rw [granulesFreed_shot_same] at hv
      cases hv
    · rwa [granulesFreed_shot_other s hne] at hv
  drive := .of_exchange rfl
  link := rfl
  pass := rfl
  passFlight := rfl
  capturingStays hb v hv := by
    obtain rfl | hne := eq_or_ne v w
    · exact absurd hv (h hb)
    · rwa [granulesFreed_shot_other s hne]

theorem releaseShot_keeps {s : State} {w : Fin 64} (cause : ReleaseCause) (h : b = true → (s.shot w).state ≠ .capturing) :
    Keeps b s (releaseShot s w cause) := by
  rw [releaseShot_eq]
  exact (((granulesFreed_keeps h).trans (mirror_keeps _ w _)).trans (poolChanged_keeps s _)).trans
    ((refreshCursor_keeps _).trans (hand_keeps _ _))

theorem releaseCheck_keeps (s : State) (w : Fin 64) : Keeps b s (releaseCheck s w) := by
  refine .ite (fun h => releaseShot_keeps _ fun _ hc => ?_) fun _ => .refl s
  rw [hc] at h
  simp at h

theorem returnAll_keeps (s : State) (w : Fin 64) : Keeps b s (returnAll s w) := returnReservation_keeps s w _

/-! ### Focus checks, development status and notices -/

theorem recordCheck_keeps (s : State) (w : Fin 64) (zone : Nat) (check : FocusCheck) (steps : Int) (origin : Origin) :
    Keeps b s (recordCheck s w zone check steps origin) := by
  unfold recordCheck
  refine Keeps.trans (Keeps.trans (Keeps.trans (Keeps.trans ?_ (mirror_keeps _ w [2])) (hand_keeps _ _))
    (evaluateUndecided_keeps _ w)) (releaseCheck_keeps _ w)
  exact modShot_keeps

theorem measureStill_keeps (s : State) (w : Fin 64) (p : Profile) (a : StillAcc) (origin : Origin) :
    Keeps b s (measureStill s w p a origin) := by
  unfold measureStill
  split
  · exact .refl s
  · exact recordCheck_keeps s w _ _ _ origin

/-- A change of fields of a record that the laws do not speak of, written to the mirror. -/
theorem mirrored_keeps {s : State} {w : Fin 64} {f : Shot → Shot} (ls : List (Fin 64))
    (h : Keeps b s (s.modShot w f)) : Keeps b s (mirror (s.modShot w f) w ls) :=
  h.trans (mirror_keeps _ w ls)

theorem changeDev_keeps {s : State} {w : Fin 64} {f : Shot → Shot} (h : Keeps b s (s.modShot w f)) :
    Keeps b s (changeDev s w f) := mirrored_keeps [3] h

theorem setFailed_keeps (s : State) (w : Fin 64) (r : Option DevReason) : Keeps b s (setFailed s w r) :=
  mirrored_keeps _ modShot_keeps

theorem failDev_keeps (s : State) (w : Fin 64) (r : DevReason) : Keeps b s (failDev s w r) :=
  (setFailed_keeps s w _).trans (refreshReady_keeps _ w)

theorem developFailed_keeps (s : State) (w : Fin 64) (r : DevReason) (k : Option JobKind) : Keeps b s (developFailed s w r k) :=
  hand_keeps s _

theorem developed_keeps (s : State) (w : Fin 64) (origin : Nat) : Keeps b s (developed s w origin) := hand_keeps s _

/-! ### The replay queue -/

/-- A change of the engine that lets its queue grow to 16 jobs at most. -/
theorem setEngine_keeps {s : State} {e : Engine} (h : e.queue.length ≤ max s.engine.queue.length 16) :
    Keeps b s (s.setEngine e) := .of_blocks (jobs := h)

/-- A change of the engine that leaves its queue. -/
theorem setEngine_queue_keeps {s : State} {e : Engine} (h : e.queue = s.engine.queue := by rfl) : Keeps b s (s.setEngine e) :=
  setEngine_keeps (by rw [h]; exact le_max_left _ _)

theorem offerJob_keeps (s : State) (w : Fin 64) (k : JobKind) : Keeps b s (offerJob s w k).1 := by
  unfold offerJob
  split
  · next h =>
    refine Keeps.trans (setEngine_keeps ?_) (publish_keeps _ 5)
    have hroom : s.engine.queue.length < 16 := h
    simp only [List.length_append, List.length_singleton]
    omega
  · exact .refl s

theorem removeJob_keeps (s : State) (w : Fin 64) : Keeps b s (removeJob s w) :=
  (setEngine_keeps ((List.length_filter_le _ _).trans (le_max_left _ _))).trans (publish_keeps _ 5)

theorem offerCheck_keeps (s : State) (w : Fin 64) : Keeps b s (offerCheck s w).1 := by
  have h : Keeps b s (offerJob s w .check).1 := offerJob_keeps s w .check
  unfold offerCheck
  split
  · exact .refl s
  · rcases hj : offerJob s w .check with ⟨u, taken⟩
    rw [hj] at h
    cases taken with
    | true => exact (h.trans (changeDev_keeps modShot_keeps)).trans (refreshReady_keeps _ w)
    | false => exact h

theorem putOff_keeps (s : State) (w : Fin 64) (r : DevReason) : Keeps b s (putOff s w r).1 := by
  have h : Keeps b s (offerJob s w .develop).1 := offerJob_keeps s w .develop
  unfold putOff
  rcases hj : offerJob s w .develop with ⟨u, taken⟩
  rw [hj] at h
  cases taken with
  | true => exact (h.trans (changeDev_keeps modShot_keeps)).trans (refreshReady_keeps _ w)
  | false =>
    dsimp only
    exact h.trans (failDev_keeps u w _)

/-! ### Preview lines -/

theorem dropPreviewWork_keeps (s : State) : Keeps b s (dropPreviewWork s) := work_keeps s _

theorem writePreviewLine_keeps {s t : State} {w : Fin 64} {l : Nat × List Byte × BitVec 64} (h : writePreviewLine s w l = some t) :
    Keeps b s t := by
  unfold writePreviewLine at h
  obtain ⟨u, hu, rfl⟩ := Option.map_eq_some_iff.mp h
  have hmapped : Keeps b s u := by
    split at hu
    · cases hu; exact .refl s
    · exact allocatePreview_keeps hu
  split
  · exact hmapped.trans (emit_keeps _ _)
  · exact hmapped

theorem writePreviewLines_keeps {s t : State} {w : Fin 64} {ls : List (Nat × List Byte × BitVec 64)}
    (h : writePreviewLines s w ls = some t) : Keeps b s t := by
  induction ls generalizing s with
  | nil => cases h; exact .refl _
  | cons l ls ih =>
    obtain ⟨u, hu, ht⟩ := Option.bind_eq_some_iff.mp h
    exact (writePreviewLine_keeps hu).trans (ih ht)

theorem developLine_keeps {s t : State} {w : Fin 64} {p : Profile} {d : DevSet} {l : Nat} {data : List Byte}
    (h : developLine s w p d l data = some t) : Keeps b s t := by
  simp only [developLine] at h
  split at h
  · refine Keeps.trans ?_ (writePreviewLines_keeps h)
    exact setEngine_queue_keeps
  · cases h; exact setEngine_queue_keeps

/-! ### The engine's choice -/

theorem engineIdle_keeps (s : State) : Keeps b s (engineIdle s) := (setEngine_queue_keeps).trans (publish_keeps _ 5)

theorem beginInline_keeps (s : State) (w : Fin 64) : Keeps b s (beginInline s w) := (setEngine_queue_keeps).trans (publish_keeps _ 5)

theorem requestLine_keeps (s : State) (w : Fin 64) (l : Nat) : Keeps b s (requestLine s w l) := by
  obtain ⟨-, h⟩ | ⟨n, -, h⟩ := requestLine_cases s w l <;> rw [h]
  · exact setEngine_queue_keeps
  · exact (setEngine_queue_keeps).trans (issueRead_keeps _ _ _)

theorem beginReplay_keeps {s : State} {j : Job} {rest : List Job} (h : s.engine.queue = j :: rest) :
    Keeps b s (beginReplay s j rest) := by
  simp only [beginReplay]
  split
  · exact .refl s
  · refine Keeps.trans (Keeps.trans (Keeps.trans (Keeps.trans (setEngine_keeps ?_) (publish_keeps _ 5))
      (changeDev_keeps modShot_keeps)) (refreshReady_keeps _ _)) (requestLine_keeps _ _ _)
    rw [h]
    exact le_max_left _ _

theorem engineChoose_keeps (s : State) : Keeps b s (engineChoose s) := by
  unfold engineChoose
  refine .ite (fun _ => ?_) fun _ => .refl s
  split
  · exact beginInline_keeps s _
  · split
    · exact .refl s
    · next hq => exact .ite (fun _ => .refl s) fun _ => beginReplay_keeps hq

theorem inlineOpened_keeps (s : State) : Keeps b s (inlineOpened s) :=
  .ite (fun _ => setEngine_queue_keeps) fun _ => engineChoose_keeps s

/-- Entries leave the tap FIFO. -/
theorem fifoFilter_keeps (s : State) (q : FifoEntry → Bool) :
    Keeps b s { s with taps := { s.taps with fifo := s.taps.fifo.filter q } } :=
  .of_blocks (fifo := (List.length_filter_le _ _).trans (le_max_left _ _))

theorem abandonInline_keeps (s : State) (w : Fin 64) : Keeps b s (abandonInline s w) := by
  unfold abandonInline
  refine Keeps.trans (fifoFilter_keeps s fun e => e.window ≠ w) ?_
  exact .ite (fun _ => (dropPreviewWork_keeps _).trans (engineIdle_keeps _)) fun _ => setEngine_queue_keeps

/-! ### The end of a line and of a job -/

/-- What the reads in flight and in the queue are for, and which of them are in flight, is no matter of the laws. -/
theorem ownReads_keeps {s : State} {p : MemoryPort} (hreads : p.reads.length = s.port.reads.length)
    (h : { p with reads := s.port.reads, readFlight := s.port.readFlight, heldReads := s.port.heldReads } = s.port) :
    Keeps b s { s with port := p } := by
  have hpass : p.pass = s.port.pass := by rw [← h]
  have hwrites : p.writes = s.port.writes := by rw [← h]
  have hflight : p.passFlight = s.port.passFlight := by rw [← h]
  exact {
    mem := id
    places := fun ⟨h1, h2, h3, h4, h5, h6⟩ => ⟨hpass ▸ h1, hwrites ▸ h2, hreads ▸ h3, h4, h5, h6⟩
    indices := fun ⟨h1, h2, h3, h4, h5⟩ => ⟨h1, h2, h3, h4, h5⟩
    pool := fun ⟨h1, h2, h3⟩ => ⟨h1, h2, h3⟩
    shots := fun _ h => ⟨h, rfl⟩
    counter := rfl
    capturing := fun _ => id
    drive := .of_exchange rfl
    link := rfl
    pass := hpass
    passFlight := hflight
    capturingStays := fun _ _ => id }

theorem dropReplayReads_keeps (s : State) : Keeps b s (dropReplayReads s) := ownReads_keeps (List.length_map _) rfl

theorem stopEngine_keeps (s : State) (w : Fin 64) : Keeps false s (stopEngine s w) := by
  simp only [stopEngine]
  refine Keeps.trans (Keeps.trans (Keeps.trans (Keeps.trans ?_ (releaseShot_keeps .discarded ?_)) setEngine_queue_keeps)
    (engineIdle_keeps _)) (engineChoose_keeps _)
  · split
    · exact (removeJob_keeps s w).trans (dropReplayReads_keeps _)
    · exact fifoFilter_keeps s _
  · exact fun h => absurd h Bool.false_ne_true

theorem doneDev_keeps (s : State) (w : Fin 64) : Keeps b s (doneDev s w) := mirrored_keeps _ modShot_keeps

theorem endInline_keeps (s : State) (w : Fin 64) : Keeps b s (endInline s w) :=
  (((doneDev_keeps s w).trans (returnAll_keeps _ w)).trans
    ((developed_keeps _ w 0).trans (refreshReady_keeps _ w))).trans
    (((releaseCheck_keeps _ w).trans (engineIdle_keeps _)).trans (engineChoose_keeps _))

theorem settleDev_keeps (s : State) (w : Fin 64) : Keeps b s (settleDev s w) := by
  unfold settleDev
  split
  · exact setFailed_keeps s w _
  · exact changeDev_keeps modShot_keeps

/-- R133: the record of the shot of job j at the job's end: its checksum, and its status. -/
def jobSettled (s : State) (j : Job) : State :=
  let t := match s.engine.run.crc with
    | none => s
    | some r => changeDev s j.window fun x => { x with crc := some (crcFinish r, .replay) }
  match j.kind with
  | .develop => doneDev t j.window
  | .check => settleDev t j.window

/-- R133: the job's end once its record is settled: reservation, notice and checks, and then the engine's choice. -/
theorem endReplay_eq (s : State) (j : Job) :
    endReplay s j =
      (let t := developed (returnAll (removeJob (jobSettled s j) j.window) j.window) j.window (match j.kind with
        | .develop => 1
        | .check => 2)
      let t := releaseCheck (evaluateUndecided (refreshReady (releaseCheck t j.window) j.window) j.window) j.window
      engineChoose (engineIdle (t.setEngine { t.engine with suspend := false }))) := by
  cases hcrc : s.engine.run.crc <;> cases hkind : j.kind <;> simp only [endReplay, jobSettled, hcrc, hkind]

theorem jobSettled_keeps (s : State) (j : Job) : Keeps b s (jobSettled s j) := by
  have hcrc : Keeps b s (match s.engine.run.crc with
      | none => s
      | some r => changeDev s j.window fun x => { x with crc := some (crcFinish r, .replay) }) := by
    split
    · exact .refl s
    · exact changeDev_keeps modShot_keeps
  simp only [jobSettled]
  split
  · exact hcrc.trans (doneDev_keeps _ _)
  · exact hcrc.trans (settleDev_keeps _ _)

/-- R134: a suspend request is met or withdrawn. -/
theorem suspendCleared_keeps (s : State) : Keeps b s (s.setEngine { s.engine with suspend := false }) := setEngine_queue_keeps

theorem endReplay_keeps (s : State) (j : Job) : Keeps b s (endReplay s j) := by
  rw [endReplay_eq]
  dsimp only
  have hended := ((jobSettled_keeps (b := b) s j).trans (removeJob_keeps _ j.window)).trans (returnAll_keeps _ j.window)
  have hchecked (origin : Nat) := ((hended.trans (developed_keeps _ j.window origin)).trans (releaseCheck_keeps _ j.window)).trans
    (((refreshReady_keeps _ j.window).trans (evaluateUndecided_keeps _ j.window)).trans (releaseCheck_keeps _ j.window))
  exact (hchecked _).trans (((suspendCleared_keeps _).trans (engineIdle_keeps _)).trans (engineChoose_keeps _))

theorem suspendReplay_keeps {s : State} {j : Job} {rest : List Job} (row : Nat) (h : s.engine.queue = j :: rest) :
    Keeps b s (suspendReplay s j rest row) := by
  simp only [suspendReplay]
  refine Keeps.trans (Keeps.trans (Keeps.trans (Keeps.trans (setEngine_keeps ?_) (changeDev_keeps modShot_keeps))
    (refreshReady_keeps _ _)) (engineIdle_keeps _)) (engineChoose_keeps _)
  rw [h]
  exact le_max_left _ _

theorem afterLine_keeps (s : State) : Keeps false s (afterLine s) := by
  unfold afterLine
  split
  · exact .refl s
  · split
    · exact .refl s
    · exact .ite (fun _ => stopEngine_keeps s _) fun _ => .ite (fun _ => endInline_keeps s _) fun _ => .refl s
  · split
    · exact .refl s
    · next j rest hq =>
      split
      · exact .refl s
      · refine .ite (fun _ => stopEngine_keeps s _) fun _ => .ite (fun _ => endReplay_keeps s _) fun _ => .ite (fun _ => ?_)
          fun _ => requestLine_keeps s _ _
        refine .ite (fun _ => suspendReplay_keeps _ hq) fun _ => ?_
        refine Keeps.trans (setEngine_keeps ?_) (requestLine_keeps _ _ _)
        rw [hq]
        exact le_max_left _ _

theorem finishLine_keeps (s : State) : Keeps false s (finishLine s) :=
  .ite (fun _ => setEngine_queue_keeps) fun _ => afterLine_keeps s

theorem engineContinue_keeps (s : State) : Keeps false s (engineContinue s) :=
  .ite (fun _ => (setEngine_queue_keeps).trans (afterLine_keeps _)) fun _ => .refl s

/-! ### Lines -/

theorem consumeEntry_keeps {s t : State} {w : Fin 64} {e : FifoEntry} {rest : List FifoEntry} (hfifo : s.taps.fifo = e :: rest)
    (h : consumeEntry s w e rest = some t) : Keeps false s t := by
  simp only [consumeEntry] at h
  have htaken : Keeps false s ({ s with taps := { s.taps with fifo := rest } } : State) :=
    .of_blocks (fifo := by
      have hlen : s.taps.fifo.length = rest.length + 1 := by rw [hfifo, List.length_cons]
      show rest.length ≤ _
      omega)
  have hnext := htaken.trans (setEngine_queue_keeps (e := { s.engine with run := { s.engine.run with nextLine := e.line + 1 } }))
  split at h
  · obtain ⟨u, hu, rfl⟩ := Option.map_eq_some_iff.mp h
    exact (hnext.trans (developLine_keeps hu)).trans (finishLine_keeps u)
  · cases h; exact hnext

/-- The data of the line that the job waits for has been taken from the reads in flight. -/
theorem returnedLine_keeps {s t : State} {data : List Byte} (h : returnedLine s = some (data, t)) : Keeps b s t := by
  unfold returnedLine at h
  split at h
  · cases h
  · cases h; exact .refl s
  · obtain ⟨r, -, hr⟩ := Option.map_eq_some_iff.mp h
    cases hr
    exact ownReads_keeps rfl rfl

theorem replayStill_keeps (s : State) (w : Fin 64) (p : Profile) (l : Nat) (data : List Byte) :
    Keeps b s (replayStill s w p l data) := by
  simp only [replayStill]
  split
  · exact .refl s
  · refine .ite (fun _ => .ite (fun _ => ?_) fun _ => setEngine_queue_keeps) fun _ => .refl s
    exact (setEngine_queue_keeps).trans (measureStill_keeps _ _ _ _ _)

theorem useReplayLine_keeps {s t : State} {j : Job} {data : List Byte} (h : useReplayLine s j data = some t) : Keeps false s t := by
  simp only [useReplayLine] at h
  split at h
  · cases h; exact .refl s
  · next p _ =>
    generalize hu : replayStill _ j.window p s.engine.run.nextLine data = u at h
    have hused : Keeps false s u := by
      rw [← hu]
      exact (setEngine_queue_keeps).trans (replayStill_keeps _ _ _ _ _)
    split at h
    · obtain ⟨v, hv, rfl⟩ := Option.map_eq_some_iff.mp h
      exact (hused.trans (developLine_keeps hv)).trans (finishLine_keeps v)
    · cases h; exact hused.trans (finishLine_keeps u)

end Sys2Proof.Machine
end

section
/-! PROOFS. The Lens Line Controller, the Readout Taps and the Focus Unit keep the laws. -/

namespace Sys2Proof.Machine

set_option Elab.async false

variable {b : Bool}

/-! ### The lens line -/

theorem capturingCount_eq_zero {s : State} : capturingCount s = 0 ↔ ∀ w, (s.shot w).state ≠ .capturing := by
  rw [capturingCount, List.countP_eq_zero]
  constructor
  · intro h w
    have := h (s.shot w) (by simp [State.shot, Vector.get_eq_getElem])
    simpa using this
  · intro h x hx
    obtain ⟨i, hi, rfl⟩ := List.mem_iff_getElem.mp hx
    have hi' : i < 64 := by simpa using hi
    have := h ⟨i, hi'⟩
    simpa [State.shot, Vector.get_eq_getElem] using this

/-- A change of the lens controller that begins no DRIVE exchange, or begins one with no shot CAPTURING. -/
theorem lens_keeps {s : State} {l : Lens} (messages : l.messages.length ≤ max s.lens.messages.length 8)
    (drive : DriveLawful s { s with lens := l }) : Keeps b s { s with lens := l } :=
  .of_blocks (messages := messages) (drive := drive)

/-- An exchange that is no DRIVE. -/
theorem beginExchange_lawful {s : State} {r : LensRequest} (h : r.isDrive = false) : DriveLawful s (beginExchange s r) := by
  intro x hx hd
  cases hx
  simp [h] at hd

theorem beginExchange_keeps {s : State} {r : LensRequest} (h : r.isDrive = false) : Keeps b s (beginExchange s r) :=
  lens_keeps (le_max_left _ _) (beginExchange_lawful h)

theorem driveMayBegin_capturing {s : State} (h : driveMayBegin s = true) : ∀ w, (s.shot w).state ≠ .capturing := by
  simp only [driveMayBegin, Bool.and_eq_true, decide_eq_true_eq] at h
  exact capturingCount_eq_zero.mp h.2

/-- R110, R114: a DRIVE exchange begins with no shot CAPTURING. -/
theorem beginDrive_keeps {s : State} (h : driveMayBegin s = true) : Keeps b s (beginDrive s) := by
  unfold beginDrive
  split
  · exact .refl s
  · have hnone := driveMayBegin_capturing h
    exact lens_keeps (le_max_left _ _) fun _ _ _ => .inr hnone

theorem beginMessage_keeps (s : State) : Keeps b s (beginMessage s) := by
  unfold beginMessage
  split
  · exact .refl s
  · next m rest hm =>
    refine Keeps.trans (t := { s with lens := { s.lens with messages := rest } }) (lens_keeps ?_ (.of_exchange rfl))
      (beginExchange_keeps rfl)
    rw [hm, List.length_cons]
    show rest.length ≤ _
    omega

theorem arbitrate_keeps (s : State) : Keeps b s (arbitrate s) := by
  unfold arbitrate
  refine .ite (fun _ => .refl s) fun _ => ?_
  split
  · exact .refl s
  · refine .ite (fun _ => Keeps.trans ?_ (beginExchange_keeps rfl)) fun _ => .refl s
    exact .of_blocks
  · refine .ite (fun _ => Keeps.trans ?_ (beginExchange_keeps ?_)) fun _ => .refl s
    · exact .of_blocks
    · split <;> rfl
  · refine .ite (fun _ => Keeps.trans ?_ (beginExchange_keeps rfl)) fun _ => .ite (fun h => ?_) fun _ =>
      .ite (fun _ => beginMessage_keeps s) fun _ => .ite (fun h => beginDrive_keeps h) fun _ =>
      .ite (fun _ => Keeps.trans ?_ (beginExchange_keeps rfl)) fun _ => .refl s
    · exact .of_blocks
    · exact .ite (fun _ => beginDrive_keeps (Bool.and_eq_true _ _ ▸ h).2) fun _ => beginMessage_keeps s
    · exact .of_blocks

theorem lensChanged_keeps (r s : State) : Keeps b s (lensChanged r s) := .ite (fun _ => .refl s) fun _ => publish_keeps s 6

theorem lensReply_keeps (s : State) (m : LensMessage) (st : LensReplyStatus) (data : List Byte) :
    Keeps b s (lensReply s m st data) := hand_keeps s _

theorem flushMessages_keeps (s : State) : Keeps b s (flushMessages s) := by
  refine Keeps.trans ?_ (foldl_keeps (fun s m => lensReply_keeps s m .noLens []) _ _)
  exact lens_keeps (Nat.zero_le _) (.of_exchange rfl)

theorem attachLens_keeps (s : State) : Keeps b s (attachLens s) := by
  unfold attachLens
  refine Keeps.trans (Keeps.trans ?_ (publish_keeps _ 6)) (arbitrate_keeps _)
  exact .of_blocks

/-- With no exchange in flight none has begun. -/
theorem DriveLawful.of_none {s t : State} (h : t.lens.exchange = none) : DriveLawful s t := by
  intro x hx
  rw [h] at hx
  cases hx

/-- R103: the lens controller of a lens that has gone, before its messages are answered. -/
def lensGone (s : State) : State :=
  { s with lens := { s.lens with
    state := .absent, exchange := none, drive := none, statusPending := false, stopPending := false, identPending := false,
    pollPending := false, poll := .stopped, identRetry := .stopped, timeouts := 0, info := none, report := none } }

/-- R103: the message in flight is answered with NO-LENS. -/
def flightAnswered (s t : State) : State :=
  match s.lens.exchange with
  | some x => match x.request with
    | .message m => lensReply t m .noLens []
    | _ => t
  | none => t

theorem detachLens_eq (s : State) : detachLens s = flushMessages (flightAnswered s (lensChanged s (lensGone s))) := rfl

theorem flightAnswered_keeps (s t : State) : Keeps b t (flightAnswered s t) := by
  unfold flightAnswered
  split
  · split
    · exact lensReply_keeps _ _ _ _
    · exact .refl _
  · exact .refl _

theorem lensGone_keeps (s : State) : Keeps b s (lensGone s) := lens_keeps (le_max_left _ _) (.of_none rfl)

theorem detachLens_keeps (s : State) : Keeps b s (detachLens s) := by
  rw [detachLens_eq]
  exact ((lensGone_keeps s).trans (lensChanged_keeps s _)).trans ((flightAnswered_keeps s _).trans (flushMessages_keeps _))

theorem loseLens_keeps (s : State) (kind : Byte) : Keeps b s (loseLens s kind) := by
  simp only [loseLens]
  refine Keeps.trans (Keeps.trans (Keeps.trans ?_ (publish_keeps _ 6)) (flushMessages_keeps _)) (hand_keeps _ _)
  exact .of_blocks

theorem returnTarget_keeps (s : State) (t : Nat) : Keeps b s (returnTarget s t) := by
  unfold returnTarget
  split
  · exact .of_blocks
  · exact .refl s

theorem goodReply_keeps (s : State) (x : Exchange) (r : Reply) : Keeps b s (goodReply s x r) := by
  unfold goodReply
  split
  · unfold identReplied
    split <;> exact .of_blocks
  · exact .ite (fun _ => .of_blocks) fun _ => .refl s
  · next t _ _ =>
    have hreturned : Keeps b s (if r.status = .busy then returnTarget s t else s) :=
      .ite (fun _ => returnTarget_keeps s t) fun _ => .refl s
    refine hreturned.trans (.ite (fun _ => ?_) fun _ => .refl _)
    exact .of_blocks
  · exact .refl s
  · exact .refl s

theorem timedOut_keeps (s : State) (x : Exchange) : Keeps b s (timedOut s x) := by
  unfold timedOut
  split
  · exact .ite (fun _ => .of_blocks) fun _ => .refl s
  · exact returnTarget_keeps s _
  · exact lensReply_keeps s _ _ _
  · exact .refl s

/-- A timeout is counted. -/
theorem timeouts_keeps (s : State) (n : Nat) : Keeps b s { s with lens := { s.lens with timeouts := n } } := .of_blocks

/-- R104, R105: the line is free after an exchange. -/
def lineFreed (s : State) (x : Exchange) : State :=
  { s with lens := { s.lens with
    exchange := none
    previous := match x.request with
      | .message _ => .message
      | _ => .other } }

theorem lineFreed_keeps (s : State) (x : Exchange) : Keeps b s (lineFreed s x) := lens_keeps (le_max_left _ _) (.of_none rfl)

/-- R105: a good reply gives the last position report and ends the run of timeouts. -/
def reportTaken (s : State) (r : Reply) : State := { s with lens := { s.lens with report := some r.report, timeouts := 0 } }

/-- R113: a good reply to a message is handed on as a LENS REPLY. -/
def replyHandedOn (s : State) (x : Exchange) (r : Reply) : State :=
  match x.request with
  | .message m => lensReply s m
      (match r.status with
        | .ok => .ok
        | .busy => .busy
        | .refused => .refused) r.data
  | _ => s

/-- R105, R113: the end of an exchange with a good reply. -/
theorem endExchange_good {s : State} {x : Exchange} {bytes : List Byte} {r : Reply} (h : judgeReply x.request bytes = some r) :
    endExchange s x bytes =
      arbitrate (replyHandedOn (lensChanged s (goodReply (reportTaken (lineFreed s x) r) x r)) x r) := by
  simp only [endExchange, h]
  rfl

/-- R105, R106: the end of an exchange with a timeout. -/
theorem endExchange_timeout {s : State} {x : Exchange} {bytes : List Byte} (h : judgeReply x.request bytes = none) :
    endExchange s x bytes =
      (let t := timedOut (lineFreed s x) x
      arbitrate (if t.lens.state = .identifying ∨ t.lens.state = .ready then
        (let t := { t with lens := { t.lens with timeouts := t.lens.timeouts + 1 } }
        if Config.timeoutLimit ≤ t.lens.timeouts then loseLens t x.request.code else t)
      else t)) := by
  simp only [endExchange, h]
  rfl

theorem endExchange_keeps (s : State) (x : Exchange) (bytes : List Byte) : Keeps b s (endExchange s x bytes) := by
  rcases hj : judgeReply x.request bytes with _ | r
  · rw [endExchange_timeout hj]
    refine Keeps.trans (((lineFreed_keeps s x).trans (timedOut_keeps _ x)).trans ?_) (arbitrate_keeps _)
    refine .ite (fun _ => ?_) fun _ => .refl _
    exact (timeouts_keeps _ _).trans (.ite (fun _ => loseLens_keeps _ _) fun _ => .refl _)
  · rw [endExchange_good hj]
    have htaken : Keeps b s (reportTaken (lineFreed s x) r) := (lineFreed_keeps s x).trans .of_blocks
    refine ((htaken.trans (goodReply_keeps _ x r)).trans (lensChanged_keeps s _)).trans (Keeps.trans ?_ (arbitrate_keeps _))
    unfold replyHandedOn
    split
    · exact lensReply_keeps _ _ _ _
    · exact .refl _

theorem requestStatus_keeps (s : State) : Keeps b s (requestStatus s) := by
  refine .ite (fun _ => Keeps.trans ?_ (arbitrate_keeps _)) fun _ => .refl s
  exact .of_blocks

theorem placeTarget_keeps (s : State) (t : Nat) : Keeps b s (placeTarget s t) := by
  refine Keeps.trans ?_ (arbitrate_keeps _)
  exact .of_blocks

theorem judgeStopAtOpen_keeps (s : State) : Keeps b s (judgeStopAtOpen s) := by
  unfold judgeStopAtOpen
  refine .ite (fun _ => .ite (fun _ => Keeps.trans ?_ (arbitrate_keeps _)) fun _ => ?_) fun _ => .refl s
  · exact .of_blocks
  · split
    · next x hx =>
      split
      · exact lens_keeps (le_max_left _ _) (.of_exchange (by rw [hx]; rfl))
      · exact .refl s
    · exact .refl s

theorem capturingFell_keeps (s : State) : Keeps b s (capturingFell s) := .ite (fun _ => arbitrate_keeps s) fun _ => .refl s

/-! ### The shot taps -/

theorem mapContexts_keeps (s : State) (f : Option TapContext → Option TapContext) : Keeps b s (s.mapContexts f) := .of_blocks

theorem modContext_keeps (s : State) (w : Fin 64) (f : TapContext → TapContext) : Keeps b s (modContext s w f) :=
  mapContexts_keeps s _

theorem unbindContext_keeps (s : State) (w : Fin 64) : Keeps b s (unbindContext s w) := mapContexts_keeps s _

theorem bindContext_keeps (s : State) (c : TapContext) : Keeps b s (bindContext s c) := .of_blocks

theorem jobsNotTaken_keeps (s : State) (w : Fin 64) (develop check : Bool) : Keeps b s (jobsNotTaken s w develop check) := by
  unfold jobsNotTaken
  exact Keeps.trans (.ite (fun _ => developFailed_keeps _ _ _ _) fun _ => .refl s)
    (.ite (fun _ => developFailed_keeps _ _ _ _) fun _ => .refl _)

theorem tapStill_keeps (s : State) (w : Fin 64) (p : Profile) (c : TapContext) (l : Nat) (data : List Byte) :
    Keeps b s (tapStill s w p c l data) := by
  unfold tapStill
  split
  · refine .ite (fun _ => .ite (fun _ => ?_) fun _ => modContext_keeps s w _) fun _ => .refl s
    exact (modContext_keeps s w _).trans (measureStill_keeps _ w p _ _)
  · exact .refl s

theorem tapFeed_keeps (s : State) (w : Fin 64) (l : Nat) (data : List Byte) : Keeps b s (tapFeed s w l data) := by
  unfold tapFeed
  refine .ite (fun h => .of_blocks (fifo := ?_)) fun _ => ?_
  · have hroom : s.taps.fifo.length < 128 := h
    simp only [List.length_append, List.length_singleton]
    omega
  · exact (((modContext_keeps s w _).trans (abandonInline_keeps _ w)).trans (putOff_keeps _ w _)).trans
      ((jobsNotTaken_keeps _ w _ _).trans (engineChoose_keeps _))

theorem tapInOrder_keeps (s : State) (w : Fin 64) (p : Profile) (c : TapContext) (l : Nat) (data : List Byte) :
    Keeps b s (tapInOrder s w p c l data) := by
  unfold tapInOrder
  exact ((modContext_keeps s w _).trans (tapStill_keeps _ w p c l data)).trans
    (.ite (fun _ => tapFeed_keeps _ w l data) fun _ => .refl _)

/-- R63 step 3: INLINE work of a disordered shot is put off. -/
theorem inlinePutOff_keeps {s : State} {w : Fin 64} {c : Bool} :
    Keeps b s (if c then putOff (abandonInline s w) w .disorder else (s, false)).1 := by
  split
  · exact (abandonInline_keeps s w).trans (putOff_keeps _ w _)
  · exact .refl s

theorem tapDisorder_keeps (s : State) (w : Fin 64) (c : TapContext) (l : Nat) (full : Bool) :
    Keeps b s (tapDisorder s w c l full) := by
  simp only [tapDisorder]
  refine Keeps.trans (Keeps.trans (Keeps.trans (Keeps.trans (Keeps.trans (modContext_keeps s w _) (changeDev_keeps ?_))
    inlinePutOff_keeps) (offerCheck_keeps _ w)) (hand_keeps _ _)) ((jobsNotTaken_keeps _ w _ _).trans (engineChoose_keeps _))
  exact modShot_keeps

theorem tapReceive_keeps (s : State) (w : Fin 64) (l : Nat) (full : Bool) (data : List Byte) :
    Keeps b s (tapReceive s w l full data) := by
  unfold tapReceive
  split
  · exact .ite (fun _ => .ite (fun _ => tapInOrder_keeps s w _ _ l data) fun _ => tapDisorder_keeps s w _ l full) fun _ => .refl s
  · exact .refl s

/-! ### The view tap and the Focus Unit -/

theorem setBank_keeps (s : State) (i : BankId) (k : Bank) : Keeps b s (s.setBank i k) := by
  cases i <;> exact .of_blocks

/-- A change of the view tap. -/
theorem view_keeps (s : State) (v : ViewTap) : Keeps b s { s with view := v } := .of_blocks

/-- A change of the Focus Unit. -/
theorem focus_keeps (s : State) (f : FocusUnit) : Keeps b s { s with focus := f } := .of_blocks

theorem raiseSkipped_keeps (s : State) (n : Nat) : Keeps b s (raiseSkipped s n) := view_keeps s _

theorem dropView_keeps (s : State) : Keeps b s (dropView s) := by
  unfold dropView
  split
  · exact .refl s
  · exact ((setBank_keeps s _ _).trans (view_keeps _ _)).trans (raiseSkipped_keeps _ 1)

theorem handOver_keeps (s : State) (i : BankId) : Keeps b s (handOver s i) :=
  .ite (fun _ => setBank_keeps s i _) fun _ => setBank_keeps s i _

theorem viewLine_keeps (s : State) (f : FocusSetup) (v : Followed) (l : Nat) (data : List Byte) :
    Keeps b s (viewLine s f v l data) := by
  simp only [viewLine]
  refine .ite (fun _ => ?_) fun _ => (view_keeps s _).trans (setBank_keeps _ _ _)
  exact (((view_keeps s _).trans (setBank_keeps _ _ _)).trans (handOver_keeps _ _)).trans (requestStatus_keeps _)

theorem viewStart_keeps (s : State) (f : FocusSetup) (buffer : Nat) (data : List Byte) : Keeps b s (viewStart s f buffer data) := by
  simp only [viewStart]
  refine Keeps.trans ((dropView_keeps s).trans
    (view_keeps _ { (dropView s).view with sequence := wrap32 ((dropView s).view.sequence + 1) })) ?_
  split
  · exact (raiseSkipped_keeps _ 1).trans (publish_keeps _ 8)
  · exact (((setBank_keeps _ _ _).trans (publish_keeps _ 8)).trans (requestStatus_keeps _)).trans (viewLine_keeps _ f _ 0 data)

theorem viewReceive_keeps (s : State) (f : FocusSetup) (buffer l : Nat) (full : Bool) (data : List Byte) :
    Keeps b s (viewReceive s f buffer l full data) := by
  unfold viewReceive
  refine .ite (fun _ => viewStart_keeps s f buffer data) fun _ => ?_
  split
  · exact .refl s
  · exact .ite (fun _ => .refl s) fun _ => .ite (fun _ => viewLine_keeps s f _ l data) fun _ =>
      (dropView_keeps s).trans (publish_keeps _ 8)

/-- R75: a bank that holds a FULL view is cleared. -/
theorem clearBank_keeps {s : State} {c : Prop} [Decidable c] (i : BankId) :
    Keeps b s (if c then raiseSkipped (s.setBank i idleBank) 1 else s) :=
  .ite (fun _ => (setBank_keeps s i _).trans (raiseSkipped_keeps _ 1)) fun _ => .refl s

theorem clearViews_keeps (s : State) : Keeps b s (clearViews s) := by
  simp only [clearViews]
  have hcleared := ((dropView_keeps (b := b) s).trans (clearBank_keeps (c := (dropView s).focus.bankA.state = .full) .a)).trans
    (clearBank_keeps (c := (if (dropView s).focus.bankA.state = .full then raiseSkipped ((dropView s).setBank .a idleBank) 1
      else dropView s).focus.bankB.state = .full) .b)
  exact .ite (fun _ => hcleared) fun _ => hcleared.trans (publish_keeps _ 8)

theorem resetZones_keeps (s : State) : Keeps b s (resetZones s) :=
  (focus_keeps s _).trans (foldl_keeps (fun _ _ => emitLine_keeps _ _) _ _)

theorem acceptFocus_keeps (s : State) (f : FocusSetup) : Keeps b s (acceptFocus s f) := by
  simp only [acceptFocus]
  have haccepted := ((clearViews_keeps (b := b) s).trans (focus_keeps _ { (clearViews s).focus with setup := some f })).trans
    (view_keeps _ { (clearViews s).view with lastGridLine := lastGridLineOf f })
  exact .ite (fun _ => haccepted.trans (resetZones_keeps _)) fun _ => haccepted

theorem setFocusRule_keeps (o : OrderRecord) (img : List Byte) (s : State) : Keeps b s (setFocusRule o img s).1 := by
  unfold setFocusRule
  split
  · exact .refl s
  · split
    · exact acceptFocus_keeps s _
    · exact .refl s

theorem focusStartRule_keeps (o : OrderRecord) (img : List Byte) (s : State) : Keeps b s (focusStartRule o img s).1 := by
  unfold focusStartRule
  split
  · exact .refl s
  · dsimp only
    split
    · exact .refl s
    · exact focus_keeps s _

theorem formTarget_keeps (s : State) (f : FocusSetup) (e : Nat) (z : ZoneRecord) : Keeps b s (formTarget s f e z) := by
  unfold formTarget
  split
  · exact .ite (fun _ => placeTarget_keeps s _) fun _ => .refl s
  · exact .refl s

theorem follow_keeps (s : State) (f : FocusSetup) (k : Bank) (p : Fin 63) : Keeps b s (follow s f k p) := by
  unfold follow
  split
  · exact .refl s
  · exact .ite (fun _ => .refl s) fun _ => .ite (fun _ => focus_keeps s _) fun _ => formTarget_keeps s f _ _

/-- R91: the primary zone that the measurement of bank k under setup f gives. -/
def newPrimary (s : State) (f : FocusSetup) (k : Bank) : Option (Fin 63) :=
  choosePrimary f s.focus.candidates (measuredZones f k s.focus.zones) s.focus.primary

/-- R89: the zone records that it gives. -/
def newZones (s : State) (f : FocusSetup) (k : Bank) : Vector ZoneRecord 63 :=
  markPrimary (newPrimary s f k) (measuredZones f k s.focus.zones)

/-- R89, R91: zone records and primary zone of a measurement, before they are published. -/
def zonesSettled (s : State) (f : FocusSetup) (k : Bank) : State :=
  { s with focus := { s.focus with zones := newZones s f k, primary := newPrimary s f k } }

/-- R89, R90: the zone records of a measurement written back, and its notices handed over. -/
def zonesReported (s : State) (f : FocusSetup) (k : Bank) : State :=
  (focusChanges f s.focus.zones (newZones s f k)).foldl hand
    ((zonesWritten f s.focus.zones (newZones s f k)).foldl (fun s z => emitLine s (.zone z)) (zonesSettled s f k))

theorem resultsStand_eq (s : State) (f : FocusSetup) (k : Bank) :
    resultsStand s f k =
      match newPrimary s f k with
      | none => zonesReported s f k
      | some p =>
        if !(candidateZones f s.focus.candidates (measuredZones f k s.focus.zones)).isEmpty then
          follow (zonesReported s f k) f k p
        else zonesReported s f k := rfl

theorem zonesReported_keeps (s : State) (f : FocusSetup) (k : Bank) : Keeps b s (zonesReported s f k) :=
  ((focus_keeps s _).trans (foldl_keeps (fun s z => emitLine_keeps s (.zone z)) _ _)).trans (foldl_keeps hand_keeps _ _)

theorem resultsStand_keeps (s : State) (f : FocusSetup) (k : Bank) : Keeps b s (resultsStand s f k) := by
  have hreported := zonesReported_keeps (b := b) s f k
  rw [resultsStand_eq]
  split
  · exact hreported
  · exact .ite (fun _ => hreported.trans (follow_keeps _ f k _)) fun _ => hreported

theorem completeMeasurement_keeps (s : State) (k : Bank) : Keeps b s (completeMeasurement s k) := by
  unfold completeMeasurement
  have hskipped : Keeps b s (publish (raiseSkipped s 1) 8) := (raiseSkipped_keeps s 1).trans (publish_keeps _ 8)
  split
  · exact hskipped
  · exact .ite (fun _ => hskipped) fun _ => resultsStand_keeps s _ k

theorem nextMeasurement_keeps (s : State) (i : BankId) : Keeps b s (nextMeasurement s i) := by
  simp only [nextMeasurement]
  exact .ite (fun _ => (setBank_keeps s i _).trans (setBank_keeps _ _ _)) fun _ => setBank_keeps s i _

end Sys2Proof.Machine
end

section
/-! PROOFS. The Shot Table, the Verify Unit, the tether orders and the other orders keep the laws. -/

namespace Sys2Proof.Machine

set_option Elab.async false

variable {b : Bool}

/-! ### Sealing -/

/-- R37 steps 1 to 4: the record of a sealed shot, its inline work dropped and its CHECK job offered; true when that is not taken. -/
def sealWork (s : State) (w : Fin 64) : State × Bool :=
  let t := mirrorChanged (sealRecord s w) w (s.shot w)
  let incomplete := decide ((s.shot w).tapStatus = .inOrder) && decide ((t.shot w).tapStatus = .incomplete)
  let t := if incomplete && decide ((s.shot w).dev = .inline) then failDev (abandonInline t w) w .incomplete else t
  if incomplete then offerCheck t w else (t, false)

/-- R37 steps 5 to 7: the reservation returned, the statuses set and the shot evaluated for the tether. -/
def sealSettled (s : State) (w : Fin 64) : State :=
  evaluateUndecided (sealStatuses (returnReservation (sealWork s w).1 w (sealReturn ((sealWork s w).1.shot w))) w) w

/-- R37 step 8: SHOT SEALED. -/
def sealNotified (s : State) (w : Fin 64) (cause : SealCause) : State :=
  hand (sealSettled s w) (shotNotice (sealSettled s w) w .shotSealed 0
    (byte1 cause.code ++ byte1 ((sealSettled s w).shot w).tapStatus.code ++ leBytes 2 ((sealSettled s w).shot w).rawMapped ++
      byte1 ((sealSettled s w).shot w).dev.code))

/-- R137: the DEVELOP FAILED notices of a seal. -/
def sealReported (s : State) (w : Fin 64) (cause : SealCause) : State :=
  let incomplete := decide ((s.shot w).tapStatus = .inOrder) &&
    decide (((mirrorChanged (sealRecord s w) w (s.shot w)).shot w).tapStatus = .incomplete)
  let t := sealNotified s w cause
  jobsNotTaken (if incomplete && decide ((s.shot w).dev = .inline) then developFailed t w .incomplete none else t) w false
    (sealWork s w).2

theorem sealShot_eq (s : State) (w : Fin 64) (cause : SealCause) :
    sealShot s w cause = capturingFell (engineChoose (releaseCheck (sealReported s w cause) w)) := rfl

theorem sealRecord_keeps {s : State} {w : Fin 64} (h : (s.shot w).state ≠ .free) : Keeps false s (sealRecord s w) := by
  unfold sealRecord
  refine Keeps.trans ?_ (unbindContext_keeps _ w)
  refine setShot_keeps ?_ rfl rfl (le_refl _) (fun hc => ?_) fun hb => absurd hb Bool.false_ne_true
  · exact ⟨fun hf => (nomatch hf), fun hf => absurd hf h⟩
  · cases hc

theorem sealWork_keeps {s : State} {w : Fin 64} (h : (s.shot w).state ≠ .free) : Keeps false s (sealWork s w).1 := by
  simp only [sealWork]
  have hrecord := (sealRecord_keeps h).trans (mirrorChanged_keeps _ w (s.shot w))
  have hdropped (c : Bool) : Keeps false s (if c then failDev (abandonInline (mirrorChanged (sealRecord s w) w (s.shot w)) w) w .incomplete
      else mirrorChanged (sealRecord s w) w (s.shot w)) :=
    hrecord.trans (.ite (fun _ => (abandonInline_keeps _ w).trans (failDev_keeps _ w _)) fun _ => .refl _)
  split
  · exact (hdropped _).trans (offerCheck_keeps _ w)
  · exact hdropped _

theorem sealStatuses_keeps (s : State) (w : Fin 64) : Keeps b s (sealStatuses s w) := by
  unfold sealStatuses
  refine Keeps.trans ?_ (mirrorChanged_keeps _ w _)
  exact modShot_keeps

theorem sealReported_keeps {s : State} {w : Fin 64} (cause : SealCause) (h : (s.shot w).state ≠ .free) :
    Keeps false s (sealReported s w cause) := by
  have hsettled : Keeps false s (sealSettled s w) :=
    (((sealWork_keeps h).trans (returnReservation_keeps _ w _)).trans (sealStatuses_keeps _ w)).trans (evaluateUndecided_keeps _ w)
  have hnotified : Keeps false s (sealNotified s w cause) := hsettled.trans (hand_keeps _ _)
  exact (hnotified.trans (.ite (fun _ => developFailed_keeps _ w _ _) fun _ => .refl _)).trans (jobsNotTaken_keeps _ w _ _)

theorem sealShot_keeps {s : State} {w : Fin 64} (cause : SealCause) (h : (s.shot w).state ≠ .free) :
    Keeps false s (sealShot s w cause) := by
  rw [sealShot_eq]
  exact ((sealReported_keeps cause h).trans (releaseCheck_keeps _ w)).trans
    ((engineChoose_keeps _).trans (capturingFell_keeps _))

/-! ### Discarding -/

theorem freeVerify_keeps (s : State) (w : Fin 64) : Keeps b s (freeVerify s w) := .of_blocks

/-- R39 step 5: a shot that waits for the engine to stop is DISCARDING. -/
theorem discarding_keeps {s : State} {w : Fin 64} (h : (s.shot w).state ≠ .free) :
    Keeps false s (mirror (s.modShot w fun x => { x with state := .discarding }) w [0]) := by
  refine mirrored_keeps _ (setShot_keeps ?_ rfl rfl (le_refl _) (fun hc => ?_) fun hb => absurd hb Bool.false_ne_true)
  · exact ⟨fun hf => (nomatch hf), fun hf => absurd hf h⟩
  · cases hc

theorem discardNow_keeps {s : State} {w : Fin 64} (h : (s.shot w).state ≠ .free) : Keeps false s (discardNow s w) := by
  have hlive (t : State) : Keeps false t (releaseShot t w .discarded) :=
    releaseShot_keeps .discarded fun hb => absurd hb Bool.false_ne_true
  simp only [discardNow]
  split
  · exact (discarding_keeps h).trans (.ite (fun _ => setEngine_queue_keeps) fun _ => (abandonInline_keeps _ w).trans (hlive _))
  · exact (discarding_keeps h).trans setEngine_queue_keeps
  · exact hlive s

/-- R39 steps 1 to 3: a shot's tether entry, verify context and job go. -/
def discardCleared (s : State) (w : Fin 64) : State :=
  let t := freeVerify (refreshHead (s.setTetherQueue (withoutEntry s.tether.queue w))) w
  if (t.shot w).dev = .queued then removeJob t w else t

/-- R39 step 4: so does its tap context. -/
def discardPrepared (s : State) (w : Fin 64) : State :=
  if (s.shot w).state = .capturing then unbindContext ((discardCleared s w).modShot w fun x => { x with timer := .stopped }) w
  else discardCleared s w

theorem discardShot_eq (s : State) (w : Fin 64) :
    discardShot s w = if (s.shot w).state = .capturing then capturingFell (engineChoose (discardNow (discardPrepared s w) w))
      else engineChoose (discardNow (discardPrepared s w) w) := rfl

theorem discardCleared_keeps (s : State) (w : Fin 64) : Keeps b s (discardCleared s w) := by
  have hfreed := ((setTetherQueue_keeps (b := b) s (withoutEntry s.tether.queue w)).trans (refreshHead_keeps _)).trans (freeVerify_keeps _ w)
  exact .ite (fun _ => hfreed.trans (removeJob_keeps _ w)) fun _ => hfreed

theorem discardPrepared_keeps (s : State) (w : Fin 64) : Keeps b s (discardPrepared s w) := by
  refine .ite (fun _ => ((discardCleared_keeps s w).trans ?_).trans (unbindContext_keeps _ w)) fun _ => discardCleared_keeps s w
  exact modShot_keeps

@[simp] theorem refreshHead_shots (s : State) : (refreshHead s).shots = s.shots := by
  simp only [refreshHead]
  split
  · rfl
  · split <;> simp

@[simp] theorem removeJob_shots (s : State) (w : Fin 64) : (removeJob s w).shots = s.shots := by simp [removeJob]

theorem discardCleared_shots (s : State) (w : Fin 64) : (discardCleared s w).shots = s.shots := by
  simp only [discardCleared]
  split <;> simp [freeVerify]

/-- They leave the shot's record, but for its timer. -/
theorem discardPrepared_shots (s : State) (w : Fin 64) :
    (discardPrepared s w).shots =
      if (s.shot w).state = .capturing then s.shots.set w.val { s.shot w with timer := .stopped } else s.shots := by
  unfold discardPrepared
  split
  · simp [unbindContext, State.shot, discardCleared_shots]
  · exact discardCleared_shots s w

theorem discardShot_keeps {s : State} {w : Fin 64} (h : (s.shot w).state ≠ .free) : Keeps false s (discardShot s w) := by
  have hopen : ((discardPrepared s w).shot w).state ≠ .free := by
    rw [State.shot, discardPrepared_shots]
    split
    · next hc => simp [Vector.get_eq_getElem, hc]
    · exact h
  have hchosen := ((discardPrepared_keeps s w).trans (discardNow_keeps hopen)).trans (engineChoose_keeps _)
  rw [discardShot_eq]
  exact .ite (fun _ => hchosen.trans (capturingFell_keeps _)) fun _ => hchosen

/-! ### Orders that name a shot -/

theorem forShot_keeps {s : State} {o : OrderRecord} {f : Fin 64 → State → State × OrderStatus}
    (h : ∀ w, (s.shot w).state ≠ .free → Keeps b s (f w s).1) : Keeps b s (forShot o s f).1 := by
  unfold forShot
  split
  · split
    · exact .refl s
    · next hnone =>
      refine h _ fun hf => hnone ?_
      simp [hf]
  · exact .refl s

theorem discardOrder_keeps (o : OrderRecord) (img : List Byte) (s : State) : Keeps false s (discardOrder o img s).1 := by
  refine forShot_keeps fun w hw => ?_
  split
  · exact .refl s
  · exact discardShot_keeps hw

theorem sealOrderRule_keeps (o : OrderRecord) (img : List Byte) (s : State) : Keeps false s (sealOrderRule o img s).1 := by
  refine forShot_keeps fun w hw => ?_
  split
  · exact sealShot_keeps _ hw
  · exact .refl s

theorem protectRule_keeps (flag : Bool) (o : OrderRecord) (img : List Byte) (s : State) : Keeps b s (protectRule flag o img s).1 := by
  refine forShot_keeps fun w hw => ?_
  dsimp only
  split
  · exact .refl s
  · have hset : Keeps b s (if (s.shot w).protect == flag then s else mirror (s.modShot w fun x => { x with protect := flag }) w [1]) :=
      .ite (fun _ => .refl s) fun _ => mirrored_keeps _ modShot_keeps
    exact .ite (fun _ => hset) fun _ => hset.trans (releaseCheck_keeps _ w)

/-! ### Profiles and the pool -/

/-- A change of the Shot Table that leaves the counter. -/
theorem table_keeps {s : State} {t : ShotTable} (h : t.seqCounter = s.table.seqCounter := by rfl) :
    Keeps b s { s with table := t } := .of_blocks (counter := h)

theorem setProfileRule_keeps (o : OrderRecord) (img : List Byte) (s : State) : Keeps b s (setProfileRule o img s).1 := by
  unfold setProfileRule
  dsimp only
  split
  · split
    · exact .refl s
    · next p _ =>
      refine Keeps.trans (t := { s with table := { s.table with
        profiles := s.table.profiles.set (field o.params 0 1) (some p) } }) table_keeps ?_
      exact .ite (fun _ => refreshCursor_keeps _) fun _ => .refl _
  · exact .refl s

theorem selectProfileRule_keeps (o : OrderRecord) (img : List Byte) (s : State) : Keeps b s (selectProfileRule o img s).1 := by
  unfold selectProfileRule
  dsimp only
  split
  · split
    · refine Keeps.trans ?_ (refreshCursor_keeps _)
      exact table_keeps
    · exact .refl s
  · exact .refl s

/-- R12, R21: with every window FREE the pool may be replaced by fresh granules, all in the free queue. -/
theorem freshPool_keeps {s : State} {p : Pool} (hall : ∀ w, (s.shot w).state = .free)
    (hfree : p.free = (List.range p.size).map fun i => p.first + i) : Keeps b s { s with pool := p } where
  mem := id
  places := fun ⟨h1, h2, h3, h4, h5, h6⟩ => ⟨h1, h2, h3, h4, h5, h6⟩
  indices := fun ⟨h1, h2, h3, h4, h5⟩ => ⟨h1, h2, h3, h4, h5⟩
  pool := fun ⟨_, _, hnone⟩ => by
    have hmapped : allMapped { s with pool := p } = [] := by
      refine List.flatMap_eq_nil_iff.mpr fun w _ => ?_
      show mappedGranules (s.mapsOf w) = []
      rw [(hnone w (hall w)).1, mappedGranules_emptyMaps]
    refine ⟨?_, ?_, hnone⟩
    · rw [hmapped, List.append_nil]
      show p.free.Perm _
      rw [hfree]
    · have hzero : totalReservation s = 0 := by
        refine List.sum_eq_zero fun n hn => ?_
        obtain ⟨x, hx, rfl⟩ := List.mem_map.mp hn
        obtain ⟨i, hi, rfl⟩ := List.mem_iff_getElem.mp hx
        have hi' : i < 64 := by simpa using hi
        have hres := (hnone ⟨i, hi'⟩ (hall ⟨i, hi'⟩)).2.2
        simpa [State.shot, Vector.get_eq_getElem] using hres
      show totalReservation s ≤ _
      omega
  shots := fun _ h => ⟨h, rfl⟩
  counter := rfl
  capturing := fun _ => id
  drive := .of_exchange rfl
  link := rfl
  pass := rfl
  passFlight := rfl
  capturingStays := fun _ _ => id

/-- R20 step 2: no record but FREE ones. -/
theorem allFree_iff {s : State} : (s.shots.toList.any fun x => x.state ≠ .free) = false ↔ ∀ w, (s.shot w).state = .free := by
  rw [List.any_eq_false]
  constructor
  · intro h w
    have := h (s.shot w) (by simp [State.shot, Vector.get_eq_getElem])
    simpa using this
  · intro h x hx
    obtain ⟨i, hi, rfl⟩ := List.mem_iff_getElem.mp hx
    have hi' : i < 64 := by simpa using hi
    have := h ⟨i, hi'⟩
    simpa [State.shot, Vector.get_eq_getElem] using this

theorem setPoolRule_keeps (o : OrderRecord) (img : List Byte) (s : State) : Keeps b s (setPoolRule o img s).1 := by
  unfold setPoolRule
  dsimp only
  split
  · exact .refl s
  · split
    · exact .refl s
    · next hany =>
      refine Keeps.trans (Keeps.trans (Keeps.trans (freshPool_keeps (allFree_iff.mp ?_) rfl) (publishPool_keeps s _))
        (evalArmed_keeps _)) (refreshCursor_keeps _)
      simpa using hany

theorem setMarksRule_keeps (o : OrderRecord) (img : List Byte) (s : State) : Keeps b s (setMarksRule o img s).1 := by
  unfold setMarksRule
  dsimp only
  split
  · exact .refl s
  · refine Keeps.trans ?_ (evalArmed_keeps _)
    exact .of_blocks

/-! ### The Verify Unit -/

/-- A change of the Verify Unit. -/
theorem verify_keeps (s : State) (v : VerifyUnit) : Keeps b s { s with verify := v } := .of_blocks

theorem modVerify_keeps (s : State) (w : Fin 64) (f : VerifyContext → VerifyContext) : Keeps b s (modVerify s w f) := verify_keeps s _

theorem setVerify_keeps (s : State) (w : Fin 64) (v : VerifyStatus) : Keeps b s (setVerify s w v) := modShot_keeps

theorem completePass_keeps (s : State) (w : Fin 64) (v : BitVec 32) : Keeps b s (completePass s w v) := by
  unfold completePass
  split
  · exact .refl s
  · refine .ite (fun _ => ?_) fun _ => ?_
    · exact (((setVerify_keeps s w _).trans (mirror_keeps _ w [5])).trans (hand_keeps _ _)).trans (freeVerify_keeps _ w)
    · exact ((((setVerify_keeps s w _).trans (mirrored_keeps _ modShot_keeps)).trans (hand_keeps _ _)).trans
        (freeVerify_keeps _ w)).trans (releaseCheck_keeps _ w)

theorem advanceVerify_keeps (s : State) (w : Fin 64) : Keeps b s (advanceVerify s w) := by
  unfold advanceVerify
  refine (modVerify_keeps s w VerifyContext.takeIn).trans ?_
  dsimp only
  split
  · exact .refl _
  · exact .ite (fun _ => completePass_keeps _ w _) fun _ => .refl _

theorem giveLine_keeps (s : State) (pass line : Nat) (data : List Byte) : Keeps b s (giveLine s pass line data) := by
  unfold giveLine
  split
  · exact .refl s
  · exact (modVerify_keeps s _ _).trans (advanceVerify_keeps _ _)

theorem startPass_keeps (s : State) (w : Fin 64) : Keeps b s (startPass s w) := by
  unfold startPass
  refine .ite (fun _ => .refl s) fun _ => ?_
  split
  · exact (verify_keeps s _).trans (setVerify_keeps _ w _)
  · exact setVerify_keeps s w _

theorem acceptLine_keeps (s : State) (w : Fin 64) (l : Nat) : Keeps b s (acceptLine s w l).1 := by
  unfold acceptLine
  split
  · exact .refl s
  · split
    · exact modVerify_keeps s w _
    · exact .refl s

theorem countCardRead_keeps (s : State) (w : Fin 64) : Keeps b s (countCardRead s w) := modShot_keeps

/-- R141, R142: a counted card read starts a pass and is accepted by it, where it may. -/
def cardAccepted (s : State) (w : Fin 64) (o : Nat) : State × Option (Nat × Nat) :=
  let t := countCardRead s w
  let reading := decide ((t.shot w).card = .reading)
  let t := if reading && decide (o = 0) then startPass t w else t
  if reading then acceptLine t w (o / Config.line) else (t, none)

theorem cardRead_eq (s : State) (w : Fin 64) (o : Nat) :
    cardRead s w o =
      (let t := (cardAccepted s w o).1
      let x := t.shot w
      let t := if decide ((s.shot w).card ≠ x.card) || decide ((s.shot w).verify ≠ x.verify) ||
        countWritten (s.shot w).cardBytes x.cardBytes x.rawLength then mirror t w [5] else t
      (if (s.shot w).card ≠ x.card then releaseCheck t w else t, (cardAccepted s w o).2)) := rfl

theorem cardAccepted_keeps (s : State) (w : Fin 64) (o : Nat) : Keeps b s (cardAccepted s w o).1 := by
  have hstarted (c : Bool) : Keeps b s (if c then startPass (countCardRead s w) w else countCardRead s w) :=
    (countCardRead_keeps s w).trans (.ite (fun _ => startPass_keeps _ w) fun _ => .refl _)
  simp only [cardAccepted]
  split
  · exact (hstarted _).trans (acceptLine_keeps _ w _)
  · exact hstarted _

theorem cardRead_keeps (s : State) (w : Fin 64) (o : Nat) : Keeps b s (cardRead s w o).1 := by
  rw [cardRead_eq]
  exact ((cardAccepted_keeps s w o).trans (.ite (fun _ => mirror_keeps _ w [5]) fun _ => .refl _)).trans
    (.ite (fun _ => releaseCheck_keeps _ w) fun _ => .refl _)

theorem cardDoneRule_keeps (o : OrderRecord) (img : List Byte) (s : State) : Keeps b s (cardDoneRule o img s).1 := by
  refine forShot_keeps fun w _ => ?_
  dsimp only
  split
  · exact .refl s
  · split
    · exact .refl s
    · split
      · exact .refl s
      · have hfreed : Keeps b s (if (verifyOf s w).isSome then setVerify (freeVerify s w) w .unverified else s) :=
          .ite (fun _ => (freeVerify_keeps s w).trans (setVerify_keeps _ w _)) fun _ => .refl s
        exact (hfreed.trans (mirrored_keeps _ modShot_keeps)).trans (releaseCheck_keeps _ w)

theorem cardRetryRule_keeps (o : OrderRecord) (img : List Byte) (s : State) : Keeps b s (cardRetryRule o img s).1 := by
  refine forShot_keeps fun w _ => ?_
  dsimp only
  split
  · exact .refl s
  · exact ((freeVerify_keeps s w).trans (mirrored_keeps _ modShot_keeps)).trans (releaseCheck_keeps _ w)

/-! ### Tether reads and orders -/

theorem countTetherRead_fields (x : Shot) (p : Bool) :
    (countTetherRead x p).state = x.state ∧ (countTetherRead x p).seq = x.seq ∧ (countTetherRead x p).copy = x.copy ∧
      (countTetherRead x p).reservation = x.reservation := by
  cases p <;> exact ⟨rfl, rfl, rfl, rfl⟩

theorem tetherRead_keeps (s : State) (w : Fin 64) (preview : Bool) : Keeps b s (tetherRead s w preview) := by
  simp only [tetherRead]
  refine Keeps.trans (Keeps.trans (setShot_keeps ?_ ?_ ?_ ?_ ?_ ?_) (.ite (fun _ => mirror_keeps _ w [5]) fun _ => .refl _))
    (.ite (fun _ => (refreshHead_keeps _).trans (releaseCheck_keeps _ w)) fun _ => .refl _)
  all_goals
    obtain ⟨hstate, hseq, hcopy, hres⟩ := countTetherRead_fields
      (if (decide ((s.shot w).tether = .queued) && decide (sendingCount s < Config.sendingLimit)) = true then
        { s.shot w with tether := .sending } else s.shot w) preview
    simp only [hstate, hseq, hcopy, hres]
    split <;> simp

theorem rateQueued_keeps (s : State) (w : Fin 64) (e : TetherEntry) : Keeps b s (rateQueued s w e) := by
  simp only [rateQueued]
  split
  · exact (mirrored_keeps [5] modShot_keeps).trans ((setTetherQueue_keeps _ _).trans (refreshHead_keeps _))
  · exact Keeps.trans (.ite (fun _ => .refl s) fun _ => mirrored_keeps [5] modShot_keeps)
      ((setTetherQueue_keeps _ _).trans (refreshHead_keeps _))

/-- R161: what a RATE does to a SEALED shot in its tether status, before the head is made current. -/
def rateStatus (s : State) (w : Fin 64) : State :=
  match (s.shot w).tether with
  | .undecided => evaluateUndecided s w
  | .notSelected =>
    match selected s (s.shot w) with
    | none => s
    | some send => joinQueue s w (degrade (s.shot w) send) false
  | .queued =>
    match tetherEntry s w with
    | some e => if e.forced then s else rateQueued s w e
    | none => s
  | _ => s

theorem rateTether_eq (s : State) (w : Fin 64) :
    rateTether s w =
      if ((refreshHead (rateStatus s w)).shot w).tether = (s.shot w).tether then refreshHead (rateStatus s w)
      else releaseCheck (refreshHead (rateStatus s w)) w := rfl

theorem rateTether_keeps (s : State) (w : Fin 64) : Keeps b s (rateTether s w) := by
  have hstatus : Keeps b s (rateStatus s w) := by
    unfold rateStatus
    split
    · exact evaluateUndecided_keeps s w
    · split
      · exact .refl s
      · exact joinQueue_keeps s w _ _
    · split
      · exact .ite (fun _ => .refl s) fun _ => rateQueued_keeps s w _
      · exact .refl s
    · exact .refl s
  have hhead := hstatus.trans (refreshHead_keeps _)
  rw [rateTether_eq]
  exact .ite (fun _ => hhead) fun _ => hhead.trans (releaseCheck_keeps _ w)

theorem rateRecord_keeps (s : State) (w : Fin 64) (rating story : Nat) (urgent : Bool) :
    Keeps b s (rateRecord s w rating story urgent) :=
  .ite (fun _ => .refl s) fun _ => mirrored_keeps _ modShot_keeps

theorem rateRule_keeps (o : OrderRecord) (img : List Byte) (s : State) : Keeps b s (rateRule o img s).1 := by
  refine forShot_keeps fun w _ => ?_
  dsimp only
  split
  · exact .refl s
  · exact (rateRecord_keeps s w _ _ _).trans (.ite (fun _ => rateTether_keeps _ w) fun _ => .refl _)

/-- A change of the Tether Queue. -/
theorem tether_keeps (s : State) (q : TetherQueue) : Keeps b s { s with tether := q } := .of_blocks

theorem setSelectionRule_keeps (o : OrderRecord) (img : List Byte) (s : State) : Keeps b s (setSelectionRule o img s).1 := by
  unfold setSelectionRule
  split
  · exact .refl s
  · exact (tether_keeps s _).trans (foldl_keeps (fun t w => (evaluateUndecided_keeps t w).trans (releaseCheck_keeps _ w)) _ _)

theorem previewPartDone_keeps (s : State) (w : Fin 64) : Keeps b s (previewPartDone s w) := by
  have hrecord : Keeps b s (mirror (s.modShot w fun x => { x with tether := .queued, sendWhat := some .raw }) w [5]) :=
    mirrored_keeps [5] modShot_keeps
  simp only [previewPartDone]
  split
  · exact hrecord.trans (refreshHead_keeps _)
  · exact hrecord.trans ((setTetherQueue_keeps _ _).trans (refreshHead_keeps _))

theorem entryDone_keeps (s : State) (w : Fin 64) (t : TetherStatus) : Keeps b s (entryDone s w t) :=
  (mirrored_keeps [5] modShot_keeps).trans ((setTetherQueue_keeps _ _).trans (refreshHead_keeps _))

theorem tetherDoneRule_keeps (o : OrderRecord) (img : List Byte) (s : State) : Keeps b s (tetherDoneRule o img s).1 := by
  refine forShot_keeps fun w _ => ?_
  dsimp only
  split
  · next p outcome _ _ =>
    split
    · exact .refl s
    · split
      · exact .refl s
      · next send _ =>
        split
        · exact .refl s
        · split
          · exact .refl s
          · have hdone : Keeps b s (if p = .preview && send = .previewThenRaw then previewPartDone s w else entryDone s w outcome) :=
              .ite (fun _ => previewPartDone_keeps s w) fun _ => entryDone_keeps s w _
            exact .ite (fun _ => hdone) fun _ => hdone.trans (releaseCheck_keeps _ w)
  · exact .refl s

theorem sendNowRule_keeps (o : OrderRecord) (img : List Byte) (s : State) : Keeps b s (sendNowRule o img s).1 := by
  refine forShot_keeps fun w _ => ?_
  dsimp only
  split
  · exact .refl s
  · split
    · exact .refl s
    · exact (joinQueue_keeps s w _ true).trans (releaseCheck_keeps _ w)

/-! ### The engine's orders, and the settings -/

theorem loadToneRule_keeps (o : OrderRecord) (img : List Byte) (s : State) : Keeps b s (loadToneRule o img s).1 := by
  unfold loadToneRule
  dsimp only
  split
  · split
    · exact .refl s
    · exact setEngine_queue_keeps
  · exact .refl s

theorem setInForce_keeps (s : State) (w : Fin 64) (d : DevSet) : Keeps b s (setInForce s w d) := by
  unfold setInForce
  refine Keeps.trans ?_ (mirrorChanged_keeps _ w _)
  exact modShot_keeps

theorem rewriteJob_keeps (s : State) (w : Fin 64) (d : DevSet) (restart : Bool) : Keeps b s (rewriteJob s w d restart) :=
  setEngine_keeps (by simp)

theorem redevelopCheck_keeps {s : State} {w : Fin 64} (d : DevSet) (hw : (s.shot w).state ≠ .free) :
    Keeps b s (redevelopCheck s w d).1 := by
  unfold redevelopCheck
  dsimp only
  split
  · exact .refl s
  · next hn =>
    exact ((takeReservation_keeps hw (Nat.not_lt.mp hn)).trans ((setInForce_keeps _ w d).trans (rewriteJob_keeps _ w d true))).trans
      ((changeDev_keeps modShot_keeps).trans (refreshReady_keeps _ w))

theorem redevelopAnew_keeps {s : State} {w : Fin 64} (d : DevSet) (hw : (s.shot w).state ≠ .free) :
    Keeps b s (redevelopAnew s w d).1 := by
  unfold redevelopAnew
  dsimp only
  split
  · exact .refl s
  · next hn =>
    have hn' : shortfall (s.shot w) ≤ available s := by
      simp only [Bool.or_eq_true, decide_eq_true_eq, not_or, Nat.not_lt] at hn
      exact hn.2
    have hoffered := ((takeReservation_keeps (b := b) hw hn').trans (setInForce_keeps _ w d)).trans (offerJob_keeps _ w .develop)
    dsimp only
    refine (hoffered.trans (changeDev_keeps ?_)).trans
      (((refreshReady_keeps _ w).trans (releaseCheck_keeps _ w)).trans (engineChoose_keeps _))
    exact modShot_keeps

theorem redevelopRule_keeps (o : OrderRecord) (img : List Byte) (s : State) : Keeps b s (redevelopRule o img s).1 := by
  refine forShot_keeps fun w hw => ?_
  dsimp only
  split
  · exact .refl s
  · split
    · split
      · exact .refl s
      · split
        · split
          · exact .refl s
          · split
            · exact (setInForce_keeps s w _).trans (rewriteJob_keeps _ w _ _)
            · exact redevelopCheck_keeps _ hw
        · exact redevelopAnew_keeps _ hw
    · exact .refl s

theorem lensMessageOrder_keeps (o : OrderRecord) (img : List Byte) (s : State) : Keeps b s (lensMessageOrder o img s).1 := by
  unfold lensMessageOrder
  dsimp only
  split
  · exact .refl s
  · split
    · exact .refl s
    · split
      · exact .refl s
      · next hroom =>
        have hlen : s.lens.messages.length < 8 := Nat.not_le.mp hroom
        have hqueued : Keeps b s (s.queueMessage (messageOf o)) := by
          refine lens_keeps ?_ (.of_exchange rfl)
          simp only [List.length_append, List.length_singleton]
          omega
        exact hqueued.trans (arbitrate_keeps _)

theorem setNoticeRule_keeps (o : OrderRecord) (img : List Byte) (s : State) : Keeps b s (setNoticeRule o img s).1 := by
  unfold setNoticeRule
  dsimp only
  split
  · exact .refl s
  · split
    · exact .refl s
    · unfold setNotice
      dsimp only
      refine Keeps.trans ?_ (evaluateAttention_keeps _)
      split <;> exact .of_blocks

theorem runOrder_keeps {s t : State} {k : OrderKind} {f : OrderRecord → List Byte → State → State × OrderStatus}
    (hf : ∀ o img, Keeps b s (f o img s).1) (h : runOrder s k f = .next t) : Keeps b s t := by
  unfold runOrder at h
  split at h
  · cases h; exact .refl s
  · cases h
    exact (hf _ _).trans ((owingSince_keeps _ s).trans (finishOrder_keeps _ _ _))

end Sys2Proof.Machine
end

section
/-! PROOFS. The Link Port and the Memory Port keep the laws: credits and occupied slots move together, and every request taken enters its
queue within its places. -/

namespace Sys2Proof.Machine

set_option Elab.async false

variable {b : Bool}

/-! ### Credits and slots -/

/-- R48: the credits that the system processor holds and the occupied slots, together. -/
def slotsHeld (s : State) : Nat := s.link.credits + slotsUsed s

/-- What an operation of the Link Port or Memory Port keeps of the laws, when credits and occupied slots together rise by k. -/
structure Serves (live : Bool) (k : Nat) (s t : State) : Prop extends Kept s t where
  slots : slotsHeld t = slotsHeld s + k
  capturingStays : live = true → ∀ w, (s.shot w).state = .capturing → (t.shot w).state = .capturing

theorem Serves.trans {s t u : State} {k n : Nat} (h : Serves b k s t) (i : Serves b n t u) : Serves b (k + n) s u :=
  ⟨h.toKept.trans i.toKept, by rw [i.slots, h.slots, Nat.add_assoc], fun hb w hw => i.capturingStays hb w (h.capturingStays hb w hw)⟩

theorem Keeps.serves {s t : State} (h : Keeps b s t) : Serves b 0 s t where
  toKept := h.toKept
  slots := by rw [slotsHeld, slotsUsed, unansweredReads, h.link, h.pass, h.passFlight]; rfl
  capturingStays := h.capturingStays

theorem Serves.then_keeps {s t u : State} {k : Nat} (h : Serves b k s t) (i : Keeps b t u) : Serves b k s u := h.trans i.serves

theorem Serves.weaken {s t : State} {k : Nat} (h : Serves true k s t) : Serves b k s t :=
  ⟨h.toKept, h.slots, fun _ => h.capturingStays rfl⟩

/-- An update of memory, link and the Memory Port's queues alone. -/
theorem Serves.of_ports {s t : State} {k : Nat} (blocks : { t with mem := s.mem, port := s.port, link := s.link } = s)
    (mem : MemoryCanonical s → MemoryCanonical t) (pass : t.port.pass.length ≤ max s.port.pass.length 32)
    (writes : t.port.writes.length ≤ s.port.writes.length) (reads : t.port.reads.length ≤ s.port.reads.length)
    (slots : slotsHeld t = slotsHeld s + k) : Serves b k s t := by
  have field {α : Type} (f : State → α) : f { t with mem := s.mem, port := s.port, link := s.link } = f s := congrArg f blocks
  have hshots : t.shots = s.shots := field State.shots
  have hshot : ∀ w, t.shot w = s.shot w := fun w => by rw [State.shot, hshots]; rfl
  have horder : t.order = s.order := field State.order
  have hnotice : t.notice = s.notice := field State.notice
  refine ⟨⟨mem, ?_, ?_, ?_, ?_, ?_, ?_, ?_⟩, slots, ?_⟩
  · rintro ⟨h1, h2, h3, h4, h5, h6⟩
    refine ⟨pass.trans (max_le h1 (le_refl _)), writes.trans h2, reads.trans h3, ?_, ?_, ?_⟩
    · rwa [show t.taps = s.taps from field State.taps]
    · rwa [show t.lens = s.lens from field State.lens]
    · rwa [show t.engine = s.engine from field State.engine]
  · rintro ⟨h1, h2, h3, h4, h5⟩
    exact ⟨horder ▸ h1, horder ▸ h2, hnotice ▸ h3, hnotice ▸ h4, hnotice ▸ h5⟩
  · intro hs
    have hpool : t.pool = s.pool := field State.pool
    refine hs.of_shots (by rw [hpool]) (by rw [hpool]) (by rw [hpool]) (field State.maps) ?_ fun w hw => ?_
    · rw [totalReservation, hshots, totalReservation]
    · rw [hshot] at hw ⊢
      exact ⟨hw, id, le_refl _⟩
  · exact fun w hw => by rw [hshot] at hw ⊢; exact ⟨hw, rfl⟩
  · rw [show t.table = s.table from field State.table]
  · exact fun w hw => by rwa [hshot] at hw
  · exact .of_exchange (by rw [show t.lens = s.lens from field State.lens])
  · exact fun _ w hw => by rwa [hshot]

/-! ### Requests -/

theorem freeWriteSlot_serves {s : State} {r : Request} {rest : List Request} (h : s.link.waiting = r :: rest) :
    Serves b 0 s (freeWriteSlot s rest) := by
  refine .of_ports rfl id (le_max_left _ _) (le_refl _) (le_refl _) ?_
  simp only [slotsHeld, slotsUsed, unansweredReads, freeWriteSlot, h, List.length_cons]
  omega

/-- R54: a taken read leaves the waiting requests; its slot counts again with its response or its place in the memory path. -/
theorem readLeaves_serves {s : State} {r : Request} {rest : List Request} (h : s.link.waiting = r :: rest) (t : State)
    (ht : Serves b 1 { s with link := { s.link with waiting := rest } } t) : Serves b 0 s t := by
  have hleft : slotsHeld { s with link := { s.link with waiting := rest } } + 1 = slotsHeld s := by
    simp only [slotsHeld, slotsUsed, unansweredReads, h, List.length_cons]
    omega
  have hkept : Serves b 0 { s with link := { s.link with waiting := rest } } { s with link := { s.link with waiting := rest } } :=
    (Keeps.refl _).serves
  obtain ⟨⟨mem, places, indices, pool, shots, counter, capturing, drive⟩, slots, capturingStays⟩ := ht
  refine ⟨⟨mem, fun ⟨h1, h2, h3, h4, h5, h6⟩ => places ⟨h1, h2, h3, h4, h5, h6⟩,
    fun ⟨h1, h2, h3, h4, h5⟩ => indices ⟨h1, h2, h3, h4, h5⟩, fun hs => pool (hs.of_shots rfl rfl rfl rfl (le_refl _)
      fun w hw => ⟨hw, id, le_refl _⟩), shots, counter, capturing, drive⟩, ?_, capturingStays⟩
  omega

theorem respond_serves (s : State) (txn : BitVec 5) (data : List Byte) (ok : Bool) : Serves b 1 s (respond s txn data ok) := by
  refine .of_ports rfl id (le_max_left _ _) (le_refl _) (le_refl _) ?_
  simp only [slotsHeld, slotsUsed, unansweredReads, respond, List.length_append, List.length_singleton]
  omega

theorem abortRead_serves (s : State) (txn : BitVec 5) : Serves b 1 s (abortRead s txn) := respond_serves s txn _ _

theorem enterPassWrite_serves {s : State} (a : Nat) (data : List Byte) (mask : BitVec 64) (h : s.port.pass.length < 32) :
    Serves b 0 s (enterPassWrite s a data mask) := by
  refine .of_ports rfl (Memory.wf_writeLine _ _ _ _) ?_ (le_refl _) (le_refl _) ?_
  · simp only [enterPassWrite, List.length_append, List.length_singleton]
    omega
  · simp [slotsHeld, slotsUsed, unansweredReads, enterPassWrite]

theorem enterPassRead_serves {s : State} (a : Nat) (txn : BitVec 5) (acc : Option (Nat × Nat)) (h : s.port.pass.length < 32) :
    Serves b 1 s (enterPassRead s a txn acc) := by
  refine .of_ports rfl id ?_ (le_refl _) (le_refl _) ?_
  · simp only [enterPassRead, List.length_append, List.length_singleton]
    omega
  · simp only [slotsHeld, slotsUsed, unansweredReads, enterPassRead, List.countP_append, List.countP_singleton, if_true]
    omega

theorem serveRead_serves {s : State} (txn : BitVec 5) (entry : Option Nat) (o : Nat) (h : s.port.pass.length < 32) :
    Serves b 1 s (serveRead s txn entry o) := by
  cases entry with
  | none => exact respond_serves s txn _ _
  | some n => exact enterPassRead_serves _ txn none h

/-- R142: whether a taken read is answered does not depend on the pass that accepts it. -/
theorem acceptRead_serves (s : State) (token : Option (Nat × Nat)) (zeros : Bool) : Serves b 0 s (acceptRead s token zeros) := by
  unfold acceptRead
  split
  · exact (Keeps.refl s).serves
  · split
    · exact (giveLine_keeps s _ _ _).serves
    · rcases List.eq_nil_or_concat s.port.pass with hpass | ⟨l, e, hpass⟩
      · refine .of_ports rfl id ?_ (le_refl _) (le_refl _) ?_
        · simp [hpass]
        · simp [slotsHeld, slotsUsed, unansweredReads, hpass]
      · refine .of_ports rfl id ?_ (le_refl _) (le_refl _) ?_
        · simp [hpass]
        · rcases e with ⟨a, kind, n⟩
          cases kind <;> simp [slotsHeld, slotsUsed, unansweredReads, hpass]

/-! ### Taking a read -/

theorem shotRead_serves {s : State} (c : SourceClass) (txn : BitVec 5) (a : Nat) (w : Fin 64) (o : Nat)
    (h : s.port.pass.length < 32) : Serves b 1 s (shotRead s c txn a w o) := by
  simp only [shotRead]
  split
  · exact (plainFault_keeps s c _ a).serves.trans (abortRead_serves _ txn)
  · split
    · exact (shotFault_keeps s w c _ o _).serves.trans (abortRead_serves _ txn)
    · split
      · exact (shotFault_keeps s w c _ o _).serves.trans (abortRead_serves _ txn)
      · have hserved : Serves b 1 s (serveRead s txn (s.rawEntry w (o / Config.granule)) o) := serveRead_serves txn _ o h
        split
        · exact (hserved.then_keeps (cardRead_keeps _ w o)).trans (acceptRead_serves _ _ _)
        · exact hserved.then_keeps (tetherRead_keeps _ w false)
        · exact hserved

theorem previewRead_serves {s : State} (c : SourceClass) (txn : BitVec 5) (a : Nat) (w : Fin 64) (o : Nat)
    (h : s.port.pass.length < 32) : Serves b 1 s (previewRead s c txn a w o) := by
  have hfault (k : FaultKind) : Serves b 1 s (abortRead (shotFault s w c k o true) txn) :=
    (shotFault_keeps s w c k o true).serves.trans (abortRead_serves _ txn)
  unfold previewRead
  dsimp only
  split
  · exact (plainFault_keeps s c _ a).serves.trans (abortRead_serves _ txn)
  · split
    · exact hfault _
    · split
      · exact hfault _
      · split
        · exact hfault _
        · have hserved : Serves b 1 s (serveRead s txn (s.previewEntry w (o / Config.granule)) o) := serveRead_serves txn _ o h
          split
          · exact hserved.then_keeps (tetherRead_keeps _ w true)
          · exact hserved

theorem readTaken_serves {s : State} (c : SourceClass) (txn : BitVec 5) (a : Nat) (h : s.port.pass.length < 32) :
    Serves b 1 s (readTaken s c txn a) := by
  have hfault (k : FaultKind) : Serves b 1 s (abortRead (plainFault s c k a) txn) :=
    (plainFault_keeps s c k a).serves.trans (abortRead_serves _ txn)
  unfold readTaken
  cases classify a with
  | unassigned => exact hfault _
  | preview w o => exact previewRead_serves c txn a w o h
  | shot w o => exact shotRead_serves c txn a w o h
  | plain =>
    cases plainCheck s a with
    | none => exact enterPassRead_serves a txn none h
    | some k => exact hfault k

theorem mayTake_place {s : State} (h : mayTake s = true) : s.port.pass.length < 32 := by
  simp only [mayTake, Bool.and_eq_true, decide_eq_true_eq] at h
  exact h.2

theorem execTakeRead_serves {s t : State} (h : execTakeRead s = .next t) : Serves b 0 s t := by
  have hrefl : Serves b 0 s s := (Keeps.refl s).serves
  unfold execTakeRead at h
  split at h
  · cases h; exact hrefl
  · next r rest hw =>
    split at h
    · cases h; exact hrefl
    · split at h
      · cases h; exact hrefl
      · next hmay =>
        have hplace : s.port.pass.length < 32 := mayTake_place (by simpa using hmay)
        dsimp only at h
        split at h <;> cases h
        · exact readLeaves_serves hw _ (abortRead_serves _ _)
        · exact readLeaves_serves hw _ (readTaken_serves _ _ _ hplace)

/-! ### Responses -/

theorem execReadDataReturn_serves {k : Nat} {s t : State} (h : execReadDataReturn k s = .next t) : Serves b 0 s t := by
  unfold execReadDataReturn at h
  split at h
  · cases h; exact (Keeps.refl s).serves
  · next r hr =>
    have hanswered : Serves b 0 s
        (if r.respond then respond { s with port := { s.port with passFlight := s.port.passFlight.eraseIdx k } } r.txn r.data true
          else { s with port := { s.port with passFlight := s.port.passFlight.eraseIdx k } }) := by
      obtain ⟨hk, hget⟩ := List.getElem?_eq_some_iff.mp hr
      have hcount := (List.getElem_cons_eraseIdx_perm hk).countP_eq fun r => r.respond
      rw [List.countP_cons, hget] at hcount
      split
      · next hresp =>
        rw [if_pos hresp] at hcount
        refine .of_ports rfl id (le_max_left _ _) (le_refl _) (le_refl _) ?_
        simp only [slotsHeld, slotsUsed, unansweredReads, respond, List.length_append, List.length_singleton]
        omega
      · next hresp =>
        rw [if_neg hresp] at hcount
        refine .of_ports rfl id (le_max_left _ _) (le_refl _) (le_refl _) ?_
        simp only [slotsHeld, slotsUsed, unansweredReads]
        omega
    dsimp only at h
    split at h <;> cases h
    · exact hanswered
    · exact hanswered.then_keeps (giveLine_keeps _ _ _ _)

theorem execReadResponseSent_serves {s t : State} (h : execReadResponseSent s = .next t) : Serves b 0 s t := by
  unfold execReadResponseSent at h
  split at h
  · cases h; exact (Keeps.refl s).serves
  · next r rest hready =>
    cases h
    refine .of_ports rfl id (le_max_left _ _) (le_refl _) (le_refl _) ?_
    simp only [slotsHeld, slotsUsed, unansweredReads, hready, List.length_cons]
    omega

/-! ### Grants and held requests -/

theorem grantPass_serves (s : State) : Serves b 0 s (grantPass s) := by
  unfold grantPass
  split
  · exact (Keeps.refl s).serves
  · next e rest hpass =>
    refine .of_ports rfl id ?_ ?_ ?_ ?_
    · simp only [hpass, List.length_cons]; omega
    · simp
    · simp
    · rcases e with ⟨a, kind, n⟩
      cases kind <;> simp only [slotsHeld, slotsUsed, unansweredReads, hpass, List.countP_cons, List.countP_append, List.countP_nil]
      · omega
      · simp

theorem execDramGrant_serves {s t : State} (h : execDramGrant s = .next t) : Serves b 0 s t := by
  unfold execDramGrant at h
  split at h <;> cases h
  · exact (Keeps.refl s).serves
  · exact grantPass_serves s
  · exact .of_ports rfl id (le_max_left _ _) (by simp [grantWrite]) (le_refl _) rfl
  · unfold grantRead
    split
    · exact (Keeps.refl s).serves
    · next e rest hreads => exact .of_ports rfl id (le_max_left _ _) (le_refl _) (by simp [hreads]) rfl

theorem enterHeldRead_keeps (s : State) : Keeps b s (enterHeldRead s) := by
  unfold enterHeldRead
  split
  · exact .refl s
  · next p a rest hheld =>
    refine .ite (fun hroom => ?_) fun _ => .refl s
    exact (waiting_keeps s s.port.work rest).trans (enterRead_keeps p a hroom)

theorem execOwnRequestEnters_keeps {q : OwnQueue} {s t : State} (h : execOwnRequestEnters q s = .next t) : Keeps false s t := by
  cases q <;> cases h
  · exact ((settle_keeps 1 s).trans (goOn_keeps _)).trans (engineContinue_keeps _)
  · exact enterHeldRead_keeps s

/-! ### Writes to plain space -/

theorem watchedWrite_keeps (s : State) (a : Nat) (data : List Byte) (mask : BitVec 64) : Keeps b s (watchedWrite s a data mask) := by
  unfold watchedWrite
  refine .ite (fun _ => .refl s) fun _ => .ite (fun _ => ?_) fun _ => .ite (fun _ => ?_) fun _ => .refl s
  · refine Keeps.trans (t := { s with order := { s.order with post := field data 0 4 % 64 } }) ?_ (takeOrder_keeps _)
    exact .of_blocks (post := fun _ => Nat.mod_lt _ (by decide))
  · refine .ite (fun _ => ?_) fun _ => .refl s
    have hconsumed : Keeps b s (consumeNotices s (field data 0 4)) := .of_blocks (consumed := fun _ => Nat.mod_lt _ (by decide))
    refine .ite (fun _ => hconsumed.trans ?_) fun _ => hconsumed.trans (evaluateAttention_keeps _)
    exact .ite (fun _ => .refl _) fun _ => emit_keeps _ _

theorem viewWrite_keeps (s : State) (a : Nat) (full : Bool) (data : List Byte) : Keeps b s (viewWrite s a full data) := by
  unfold viewWrite
  split
  · exact .refl s
  · split
    · exact .refl s
    · exact viewReceive_keeps s _ _ _ full data

theorem plainWrite_serves {s : State} (c : SourceClass) (a : Nat) (data : List Byte) (mask : BitVec 64)
    (h : s.port.pass.length < 32) : Serves b 0 s (plainWrite s c a data mask) := by
  have hstored : Serves b 0 s (enterPassWrite s a data mask) := enterPassWrite_serves a data mask h
  simp only [plainWrite]
  split
  · exact hstored.then_keeps (viewWrite_keeps _ a _ data)
  · exact hstored.then_keeps (watchedWrite_keeps _ a data mask)
  · exact hstored

/-! ### Writes of a readout -/

theorem captureStore_serves {s t : State} {w : Fin 64} {o : Nat} {data : List Byte} {mask : BitVec 64}
    (h : captureStore s w o data mask = some t) (hplace : s.port.pass.length < 32) : Serves b 0 s t := by
  have hstored {u : State} (hu : Keeps b s u) (a l : Nat) :
      Serves b 0 s (tapReceive (restartTimer (enterPassWrite u a data mask) w) w l (mask == fullMask) data) :=
    ((hu.serves.trans (enterPassWrite_serves a data mask (by rw [hu.pass]; exact hplace))).then_keeps modShot_keeps).then_keeps
      (tapReceive_keeps _ w l _ data)
  simp only [captureStore] at h
  split at h
  · cases h; exact hstored (.refl s) _ _
  · obtain ⟨u, hu, rfl⟩ := Option.map_eq_some_iff.mp h
    exact hstored (allocateRaw_keeps hu) _ _

theorem captureWrite_serves {s t : State} {w : Fin 64} {o : Nat} {data : List Byte} {mask : BitVec 64}
    (h : captureWrite s w o data mask = some t) (hplace : s.port.pass.length < 32) (hw : (s.shot w).state = .capturing) :
    Serves false 0 s t := by
  obtain ⟨u, hu, rfl⟩ := Option.map_eq_some_iff.mp h
  have hstored : Serves true 0 s u := captureStore_serves hu hplace
  have hcapturing := hstored.capturingStays rfl w hw
  split
  · exact hstored.weaken.then_keeps (sealShot_keeps .finalLine (by rw [hcapturing]; decide))
  · exact hstored.weaken

end Sys2Proof.Machine
end

section
/-! PROOFS. Every step keeps the laws: an open makes a shot CAPTURING with the counter's number, power-on reset meets the laws by itself,
and every other command keeps them. Settles O3 to O9. -/

namespace Sys2Proof.Machine

set_option Elab.async false

variable {b : Bool}

/-! ### The laws of a step -/

/-- The laws of O4 to O9, from the state s before a step to the state t after it. -/
structure Lawful (s t : State) : Prop where
  mem : MemoryCanonical s → MemoryCanonical t
  places : WithinPlaces s → WithinPlaces t
  indices : IndicesInRange s → IndicesInRange t
  pool : PoolSound s → PoolSound t
  sequence : SequenceSound s → SequenceSound t
  credits : CreditsBalance s → CreditsBalance t
  drive : DriveLawful s t

theorem Kept.sequence {s t : State} (h : Kept s t) : SequenceSound s → SequenceSound t := by
  rintro ⟨hbelow, hdistinct⟩
  refine ⟨fun w hw => ?_, fun v w hv hw heq => ?_⟩
  · obtain ⟨hw', hseq⟩ := h.shots w hw
    rw [hseq, h.counter]
    exact hbelow w hw'
  · obtain ⟨hv', hvseq⟩ := h.shots v hv
    obtain ⟨hw', hwseq⟩ := h.shots w hw
    exact hdistinct v w hv' hw' (by rw [← hvseq, ← hwseq, heq])

theorem Serves.lawful {s t : State} (h : Serves b 0 s t) : Lawful s t :=
  ⟨h.mem, h.places, h.indices, h.pool, h.toKept.sequence, fun hc => h.slots.trans hc, h.drive⟩

theorem Keeps.lawful {s t : State} (h : Keeps b s t) : Lawful s t := h.serves.lawful

theorem Lawful.then_serves {s t u : State} (h : Lawful s t) (k : Serves b 0 t u) : Lawful s u where
  mem := k.mem ∘ h.mem
  places := k.places ∘ h.places
  indices := k.indices ∘ h.indices
  pool := k.pool ∘ h.pool
  sequence := k.toKept.sequence ∘ h.sequence
  credits := k.lawful.credits ∘ h.credits
  drive := h.drive.trans k.drive k.capturing

theorem Lawful.then_keeps {s t u : State} (h : Lawful s t) (k : Keeps b t u) : Lawful s u := h.then_serves k.serves

/-- The request in its slot does not matter to what follows. -/
theorem Lawful.of_taken {s t : State} {r : Request} {rest : List Request} (hw : s.link.waiting = r :: rest)
    (h : Lawful (freeWriteSlot s rest) t) : Lawful s t := by
  have hfreed : Lawful s (freeWriteSlot s rest) := (freeWriteSlot_serves (b := false) hw).lawful
  exact ⟨h.mem ∘ hfreed.mem, h.places ∘ hfreed.places, h.indices ∘ hfreed.indices, h.pool ∘ hfreed.pool,
    h.sequence ∘ hfreed.sequence, h.credits ∘ hfreed.credits, h.drive⟩

/-! ### Opening -/

theorem judgeOpen_ok {s : State} {p : Profile} :
    judgeOpen s = .ok p ↔ s.table.seqCounter ≠ 0 ∧ activeProfile s = some p ∧ s.pool.size ≠ 0 ∧ capturingCount s < 2 ∧
      p.need ≤ available s := by
  unfold judgeOpen
  split
  · next h => simp [h]
  · next h =>
    split
    · next h' => simp [h']
    · next q h' =>
      simp only [h', Option.some.injEq]
      split_ifs with h1 h2 h3
      · simp [h1]
      · simp only [false_iff]
        omega
      · simp only [false_iff]
        rintro ⟨-, rfl, -, -, hle⟩
        omega
      · simp only [Except.ok.injEq]
        constructor
        · rintro rfl; exact ⟨h, rfl, h1, by omega, by omega⟩
        · exact fun h => h.2.1

/-- R30, R31: the record of window w with its development status at open. -/
def openedDev (s : State) (w : Fin 64) (p : Profile) : State × Bool :=
  openDev (s.setShot w (openedShot s p)) w p (inlineShot s).isSome

/-- R30, R61: the context that is bound at open. -/
def openedContext (s : State) (w : Fin 64) (p : Profile) : TapContext :=
  { window := w, next := 0, following := true, crc := crcInit, range := stillRangeAtOpen s p (openedShot s p).snapshot,
    inlineFeed := decide (((openedDev s w p).1.shot w).dev = .inline),
    still := (stillRangeAtOpen s p (openedShot s p).snapshot).map fun z => { zone := z, sums := zeroProfiles } }

/-- R32: the counter and the last-opened window move on. -/
def numberGiven (s : State) (w : Fin 64) : State :=
  { s with table := { s.table with seqCounter := nextSeq s.table.seqCounter, lastOpened := w } }

/-- R30, R32: an admitted open before its lines are written back. -/
def openedState (s : State) (w : Fin 64) (p : Profile) : State :=
  numberGiven (bindContext (openedDev s w p).1 (openedContext s w p)) w

/-- R30, R33: the record of an admitted open and the cursor have been written back. -/
def openedMirrored (s : State) (w : Fin 64) (p : Profile) : State :=
  publish (recomputeCursor (poolCounted s (mirror (openedState s w p) w
    (if ((openedState s w p).shot w).dev = .failed then recordLines ++ histLines else recordLines)))) 1

/-- R96: a focus check that is NONE from the open is recorded. -/
def openedChecked (s : State) (w : Fin 64) (p : Profile) : State :=
  match stillRangeAtOpen s p (openedShot s p).snapshot with
  | some _ => openedMirrored s w p
  | none => recordCheck (openedMirrored s w p) w (((openedShot s p).snapshot.map fun n => n.zone.val).getD 0)
      { state := .none, q := 0, conf := 0 } 0 .inline

theorem initShot_eq (s : State) (w : Fin 64) (p : Profile) :
    initShot s w p = (openedChecked s w p, (openedDev s w p).2) := by
  have h : initShot s w p =
      match stillRangeAtOpen s p (openedShot s p).snapshot with
      | some _ => (openedMirrored s w p, (openedDev s w p).2)
      | none => (recordCheck (openedMirrored s w p) w (((openedShot s p).snapshot.map fun n => n.zone.val).getD 0)
          { state := .none, q := 0, conf := 0 } 0 .inline, (openedDev s w p).2) := rfl
  rw [h, openedChecked]
  split <;> rfl

theorem openDev_keeps (s : State) (w : Fin 64) (p : Profile) (taken : Bool) : Keeps b s (openDev s w p taken).1 := by
  unfold openDev
  split
  · exact .refl s
  · split
    · dsimp only
      exact modShot_keeps
    · have h := offerJob_keeps (b := b) s w .develop
      rcases hj : offerJob s w .develop with ⟨u, took⟩
      rw [hj] at h
      cases took <;> dsimp only <;> refine Keeps.trans h ?_ <;> exact modShot_keeps

/-- R32: the counter after a number has been given is exhausted, or above that number. -/
theorem nextSeq_above (n : Nat) : nextSeq n = 0 ∨ n < nextSeq n := by
  unfold nextSeq
  split
  · exact .inl rfl
  · exact .inr (Nat.lt_succ_self n)

/-- R12, R13: an admitted open takes its reservation out of what is available. -/
theorem openedShot_pool {s : State} {w : Fin 64} {p : Profile} (hfree : (s.shot w).state = .free) (hneed : p.need ≤ available s)
    (h : PoolSound s) : PoolSound (s.setShot w (openedShot s p)) := by
  obtain ⟨haccounted, hcovered, hnone⟩ := h
  refine ⟨haccounted, ?_, fun v hv => ?_⟩
  · have hsum := totalReservation_setShot s w (openedShot s p)
    rw [(hnone w hfree).2.2] at hsum
    simp only [available, freeCount] at hneed hcovered
    simp only [openedShot, freeCount, State.setShot_pool] at hsum ⊢
    omega
  · obtain rfl | hne := eq_or_ne v w
    · rw [State.shot_setShot_same] at hv
      cases hv
    · rw [State.shot_setShot_other _ _ _ _ hne] at hv ⊢
      exact hnone v hv

/-- R32: the shot of an admitted open takes the counter's number, and the counter moves on. -/
theorem openedState_sequence {s t : State} {w : Fin 64} (hcounter : s.table.seqCounter ≠ 0)
    (hw : (t.shot w).seq = s.table.seqCounter)
    (hother : ∀ v, v ≠ w → (t.shot v).state ≠ .free → (s.shot v).state ≠ .free ∧ (t.shot v).seq = (s.shot v).seq)
    (ht : t.table.seqCounter = nextSeq s.table.seqCounter) (h : SequenceSound s) : SequenceSound t := by
  obtain ⟨hbelow, hdistinct⟩ := h
  have hnext := nextSeq_above s.table.seqCounter
  have hlower (v : Fin 64) (hv : v ≠ w) (ho : (t.shot v).state ≠ .free) :
      1 ≤ (t.shot v).seq ∧ (t.shot v).seq < s.table.seqCounter := by
    obtain ⟨ho', hseq⟩ := hother v hv ho
    obtain ⟨hone, hlt⟩ := hbelow v ho'
    rw [hseq]
    exact ⟨hone, hlt.resolve_left hcounter⟩
  refine ⟨fun v hv => ?_, fun v u hv hu heq => ?_⟩
  · rw [ht]
    obtain rfl | hne := eq_or_ne v w
    · rw [hw]
      omega
    · have := hlower v hne hv
      omega
  · obtain rfl | hne := eq_or_ne v w
    · obtain rfl | hne' := eq_or_ne u v
      · rfl
      · have := hlower u hne' hu
        omega
    · have hv' := hlower v hne hv
      obtain rfl | hne' := eq_or_ne u w
      · omega
      · obtain ⟨ho, hs⟩ := hother v hne hv
        obtain ⟨ho', hs'⟩ := hother u hne' hu
        exact hdistinct v u ho ho' (by rw [← hs, ← hs', heq])

theorem openedState_keeps (s : State) (w : Fin 64) (p : Profile) :
    Keeps b (s.setShot w (openedShot s p)) (bindContext (openedDev s w p).1 (openedContext s w p)) :=
  (openDev_keeps _ w p _).trans (bindContext_keeps _ _)

theorem openedState_capturing (s : State) (w : Fin 64) (p : Profile) : ((openedState s w p).shot w).state = .capturing :=
  (openedState_keeps s w p).capturingStays rfl w (by rw [State.shot_setShot_same]; rfl)

theorem openedState_lawful {s : State} {w : Fin 64} {p : Profile} (hfree : (s.shot w).state = .free) (hok : judgeOpen s = .ok p) :
    Lawful s (openedState s w p) := by
  obtain ⟨hcounter, -, -, -, hneed⟩ := judgeOpen_ok.mp hok
  have hbound := openedState_keeps (b := true) s w p
  have hshots (v : Fin 64) (hv : ((openedState s w p).shot v).state ≠ .free) := hbound.shots v hv
  refine ⟨hbound.mem, fun ⟨h1, h2, h3, h4, h5, h6⟩ => ?_, fun ⟨h1, h2, h3, h4, h5⟩ => ?_, fun hs => ?_, fun hs => ?_, fun hs => ?_, ?_⟩
  · obtain ⟨i1, i2, i3, i4, i5, i6⟩ := hbound.places ⟨h1, h2, h3, h4, h5, h6⟩
    exact ⟨i1, i2, i3, i4, i5, i6⟩
  · obtain ⟨i1, i2, i3, i4, i5⟩ := hbound.indices ⟨h1, h2, h3, h4, h5⟩
    exact ⟨i1, i2, i3, i4, i5⟩
  · exact (hbound.pool (openedShot_pool hfree hneed hs)).of_shots rfl rfl rfl rfl (le_refl _) fun v hv => ⟨hv, id, le_refl _⟩
  · refine openedState_sequence (w := w) hcounter ?_ (fun v hv ho => ?_) (congrArg nextSeq hbound.counter) hs
    · refine (hshots w (by rw [openedState_capturing]; decide)).2.trans ?_
      rw [State.shot_setShot_same]
      rfl
    · have := hshots v ho
      rwa [State.shot_setShot_other _ _ _ _ hv] at this
  · exact hbound.lawful.credits hs
  · exact hbound.drive

theorem openedMirrored_keeps (s : State) (w : Fin 64) (p : Profile) : Keeps b (openedState s w p) (openedMirrored s w p) := by
  unfold openedMirrored
  refine Keeps.trans ?_ (publish_keeps _ 1)
  refine Keeps.trans ?_ (recomputeCursor_keeps _)
  refine Keeps.trans ?_ (poolCounted_keeps s _)
  exact mirror_keeps _ w _

theorem initShot_keeps (s : State) (w : Fin 64) (p : Profile) : Keeps b (openedState s w p) (initShot s w p).1 := by
  rw [initShot_eq]
  dsimp only [openedChecked]
  split
  · exact openedMirrored_keeps s w p
  · exact (openedMirrored_keeps s w p).trans (recordCheck_keeps _ w _ _ _ _)

theorem shotOpened_keeps (s : State) (w : Fin 64) (p : Profile) (dev : DevStatus) : Keeps b s (shotOpened s w p dev) := hand_keeps s _

theorem admitOpen_lawful {s t : State} {w : Fin 64} {p : Profile} {data : List Byte} {mask : BitVec 64}
    (hfree : (s.shot w).state = .free) (hok : judgeOpen s = .ok p) (hplace : s.port.pass.length < 32)
    (h : admitOpen s w p data mask = some t) : Lawful s t := by
  simp only [admitOpen] at h
  obtain ⟨u, hu, rfl⟩ := Option.map_eq_some_iff.mp h
  have hinit : Keeps false (openedState s w p) (initShot s w p).1 := initShot_keeps s w p
  have hpass : (initShot s w p).1.port.pass = s.port.pass := hinit.pass.trans (openedState_keeps (b := false) s w p).pass
  have hstored : Serves false 0 (initShot s w p).1 u := captureStore_serves hu (by rw [hpass]; exact hplace)
  refine ((((openedState_lawful hfree hok).then_keeps hinit).then_serves hstored).then_keeps (b := false) ?_).then_keeps
    (judgeStopAtOpen_keeps (b := false) _)
  refine Keeps.trans ?_ (.ite (fun _ => inlineOpened_keeps _) fun _ => engineChoose_keeps _)
  refine (shotOpened_keeps u w p ((initShot s w p).1.shot w).dev).trans ?_
  exact .ite (fun _ => developFailed_keeps _ w _ _) fun _ => .refl _

theorem openAttempt_lawful {s t : State} {w : Fin 64} {data : List Byte} {mask : BitVec 64}
    (hfree : (s.shot w).state = .free) (hplace : s.port.pass.length < 32) (h : openAttempt s w data mask = some t) : Lawful s t := by
  unfold openAttempt at h
  split at h
  · cases h; exact (hand_keeps (b := false) s _).lawful
  · next p hok => exact admitOpen_lawful hfree hok hplace h

/-! ### Taking a write -/

theorem shotWrite_lawful {s t : State} {c : SourceClass} {a : Nat} {w : Fin 64} {o : Nat} {data : List Byte} {mask : BitVec 64}
    (hplace : s.port.pass.length < 32) (h : shotWrite s c a w o data mask = some t) : Lawful s t := by
  unfold shotWrite at h
  split at h
  · next hfree =>
    split at h
    · exact openAttempt_lawful hfree hplace h
    · cases h; exact (plainFault_keeps (b := false) s c _ a).lawful
  · next hcapturing =>
    split at h
    · cases h; exact (shotFault_keeps (b := false) s w c _ o _).lawful
    · split at h
      · cases h; exact (shotFault_keeps (b := false) s w c _ o _).lawful
      · exact (captureWrite_serves h hplace hcapturing).lawful
  · cases h; exact (shotFault_keeps (b := false) s w c _ o _).lawful

theorem writeTaken_lawful {s t : State} {c : SourceClass} {a : Nat} {data : List Byte} {mask : BitVec 64}
    (hplace : s.port.pass.length < 32) (h : writeTaken s c a data mask = some t) : Lawful s t := by
  have hfault (k : FaultKind) : Lawful s (plainFault s c k a) := (plainFault_keeps (b := false) s c k a).lawful
  unfold writeTaken at h
  cases hspace : classify a with
  | unassigned => rw [hspace] at h; cases h; exact hfault _
  | preview w o =>
    rw [hspace] at h
    cases h
    unfold previewWrite
    split
    · exact hfault _
    · exact (shotFault_keeps (b := false) s w c _ o _).lawful
  | shot w o => rw [hspace] at h; exact shotWrite_lawful hplace h
  | plain =>
    rw [hspace] at h
    cases hcheck : plainCheck s a with
    | none => rw [hcheck] at h; cases h; exact (plainWrite_serves (b := false) c a data mask hplace).lawful
    | some k => rw [hcheck] at h; cases h; exact hfault k

theorem execTakeWrite_lawful {s t : State} (h : execTakeWrite s = .next t) : Lawful s t := by
  have hrefl : Lawful s s := (Keeps.refl (b := false) s).lawful
  unfold execTakeWrite at h
  split at h
  · cases h; exact hrefl
  · next r rest hw =>
    split at h
    · cases h; exact hrefl
    · next data mask _ =>
      split at h
      · cases h; exact hrefl
      · next hmay =>
        have hplace : (freeWriteSlot s rest).port.pass.length < 32 := mayTake_place (s := s) (by simpa using hmay)
        split at h
        · cases h; exact (freeWriteSlot_serves (b := false) hw).lawful
        · split at h
          · next u hu => cases h; exact .of_taken hw (writeTaken_lawful hplace hu)
          · cases h

/-! ### Arrival, link reset, power-on reset -/

theorem execRequestArrives_lawful {r : Request} {s t : State} (h : execRequestArrives r s = .next t) : Lawful s t := by
  unfold execRequestArrives at h
  split at h
  · cases h
  · split at h
    · cases h; exact (Keeps.refl (b := false) s).lawful
    · next hslots =>
      cases h
      refine ⟨id, fun ⟨h1, h2, h3, h4, h5, h6⟩ => ⟨h1, h2, h3, h4, h5, h6⟩, fun ⟨h1, h2, h3, h4, h5⟩ => ⟨h1, h2, h3, h4, h5⟩,
        fun hs => hs.of_shots rfl rfl rfl rfl (le_refl _) fun w hw => ⟨hw, id, le_refl _⟩, fun ⟨h1, h2⟩ => ⟨h1, h2⟩, fun hs => ?_,
        .of_exchange rfl⟩
      simp only [CreditsBalance, slotsUsed, unansweredReads, Config.linkSlots, List.length_append, List.length_singleton] at hs hslots ⊢
      omega

/-- R58: nothing that a link reset leaves takes a slot. -/
theorem execLinkReset_slotsUsed {s t : State} (h : execLinkReset s = .next t) : slotsUsed t = 0 := by
  cases h
  have hpass : (s.port.pass.map silence).countP
      (fun e => match e.kind with | .read r => r.respond | .write _ _ => false) = 0 := by
    rw [List.countP_eq_zero]
    intro e he
    obtain ⟨⟨a, kind, n⟩, -, rfl⟩ := List.mem_map.mp he
    cases kind <;> simp [silence]
  have hflight : (s.port.passFlight.map fun r => { r with respond := false }).countP (fun r => r.respond) = 0 := by
    simp
  simp only [slotsUsed, unansweredReads, List.length_nil]
  exact (congrArg₂ (fun m n => 0 + (m + n + 0)) hpass hflight :)

theorem execLinkReset_lawful {s t : State} (h : execLinkReset s = .next t) : Lawful s t := by
  have hslots := execLinkReset_slotsUsed h
  cases h
  exact ⟨id, fun ⟨h1, h2, h3, h4, h5, h6⟩ => ⟨by simpa using h1, h2, h3, h4, h5, h6⟩,
    fun ⟨h1, h2, h3, h4, h5⟩ => ⟨h1, h2, h3, h4, h5⟩,
    fun hs => hs.of_shots rfl rfl rfl rfl (le_refl _) fun w hw => ⟨hw, id, le_refl _⟩, fun ⟨h1, h2⟩ => ⟨h1, h2⟩,
    fun _ => by rw [CreditsBalance, hslots]; rfl, .of_exchange rfl⟩

@[simp] theorem powerOn_shot (caSel memSize : BitVec 2) (pin : Bool) (pending : List Instr) (w : Fin 64) :
    (State.powerOn caSel memSize pin pending).shot w = freeShot := by
  simp [State.shot, State.powerOn, Vector.get_eq_getElem]

@[simp] theorem powerOn_mapsOf (caSel memSize : BitVec 2) (pin : Bool) (pending : List Instr) (w : Fin 64) :
    (State.powerOn caSel memSize pin pending).mapsOf w = emptyMaps := by
  simp [State.mapsOf, State.powerOn, Vector.get_eq_getElem]

theorem powerOn_pool (caSel memSize : BitVec 2) (pin : Bool) (pending : List Instr) :
    PoolSound (State.powerOn caSel memSize pin pending) := by
  refine ⟨?_, ?_, fun w _ => ?_⟩
  · simp only [allMapped, powerOn_mapsOf, mappedGranules_emptyMaps]
    simp [State.powerOn]
  · simp [totalReservation, State.powerOn, freeShot]
  · simp [freeShot]

theorem powerOn_sequence (caSel memSize : BitVec 2) (pin : Bool) (pending : List Instr) :
    SequenceSound (State.powerOn caSel memSize pin pending) := by
  constructor
  · intro w hw; simp [freeShot] at hw
  · intro v w hv; simp [freeShot] at hv

theorem powerOn_within (caSel memSize : BitVec 2) (pin : Bool) (pending : List Instr) :
    WithinPlaces (State.powerOn caSel memSize pin pending) := by
  constructor <;> simp [State.powerOn]

theorem powerOn_indices (caSel memSize : BitVec 2) (pin : Bool) (pending : List Instr) :
    IndicesInRange (State.powerOn caSel memSize pin pending) := by
  constructor <;> simp [State.powerOn]

theorem execPowerOnReset_lawful {caSel memSize : BitVec 2} {s t : State} (h : execPowerOnReset caSel memSize s = .next t) :
    Lawful s t := by
  cases h
  exact ⟨fun _ => rfl, fun _ => powerOn_within _ _ _ _, fun _ => powerOn_indices _ _ _ _, fun _ => powerOn_pool _ _ _ _,
    fun _ => powerOn_sequence _ _ _ _, fun _ => rfl, .of_none rfl⟩

/-! ### Orders and events -/

theorem dispatchRecord_keeps (s : State) (o : OrderRecord) : Keeps b s (dispatchRecord s o) := by
  unfold dispatchRecord
  split
  · exact .of_blocks
  · refine .ite (fun _ => ?_) fun _ => finishOrder_keeps s o _
    refine Keeps.trans (t := setPhase s (.imageFetch o)) .of_blocks ?_
    exact foldl_keeps (fun _ _ => issueRead_keeps _ _ _) _ _

theorem takeReturned_serves (s : State) (p : ReadPurpose) : Serves b 0 s (takeReturned s p) :=
  .of_ports rfl id (le_max_left _ _) (le_refl _) (le_refl _) rfl

theorem takeReturned_keeps (s : State) (p : ReadPurpose) : Keeps b s (takeReturned s p) where
  toKept := (takeReturned_serves (b := false) s p).toKept
  link := rfl
  pass := rfl
  passFlight := rfl
  capturingStays _ _ := id

theorem startUp_keeps (s : State) : Keeps b s (startUp s) := by
  simp only [startUp]
  have hstarted : Keeps b s { s with phase := .started } := .of_blocks
  exact ((hstarted.trans (foldl_keeps publish_keeps _ _)).trans (hand_keeps _ _)).trans
    (.ite (fun _ => attachLens_keeps _) fun _ => .refl _)

theorem execStartUpComplete_keeps {s t : State} (h : execStartUpComplete s = .next t) : Keeps b s t := by
  unfold execStartUpComplete at h
  split at h
  · cases h; exact .refl s
  · split at h <;> rw [Host.Outcome.next.injEq] at h <;> subst h
    · exact startUp_keeps s
    · exact .of_blocks

theorem advanceTo_keeps (s : State) (time : Nat) : Keeps b s (s.advanceTo time) := .of_blocks

theorem pollDue_keeps (s : State) : Keeps b s (pollDue s) := by
  refine Keeps.trans ?_ (arbitrate_keeps _)
  exact .of_blocks

theorem execOrderRecordFetched_keeps {s t : State} (h : execOrderRecordFetched s = .next t) : Keeps b s t := by
  unfold execOrderRecordFetched at h
  split at h <;> cases h
  · exact (takeReturned_keeps s _).trans (dispatchRecord_keeps _ _)
  · exact .refl s

theorem execStagingImageFetched_keeps {s t : State} (h : execStagingImageFetched s = .next t) : Keeps b s t := by
  unfold execStagingImageFetched at h
  split at h
  · split at h <;> cases h
    · exact .refl s
    · refine (takeReturned_keeps s .staging).trans ?_
      exact .of_blocks
  · cases h; exact .refl s

theorem execUnknownOrder_keeps {s t : State} (h : execUnknownOrder s = .next t) : Keeps b s t := by
  unfold execUnknownOrder at h
  split at h <;> cases h
  · exact .ite (fun _ => finishOrder_keeps s _ _) fun _ => .refl s
  · exact .refl s

theorem execSetPool_keeps {s t : State} (h : execSetPool s = .next t) : Keeps b s t := by
  unfold execSetPool at h
  split at h
  · cases h; exact .refl s
  · split at h <;> cases h
    · exact .refl s
    · exact (setPoolRule_keeps _ _ s).trans (finishOrder_keeps _ _ _)

theorem execSetPoolMarksOnly_keeps {s t : State} (h : execSetPoolMarksOnly s = .next t) : Keeps b s t := by
  unfold execSetPoolMarksOnly at h
  split at h
  · cases h; exact .refl s
  · split at h <;> cases h
    · exact (setMarksRule_keeps _ _ s).trans (finishOrder_keeps _ _ _)
    · exact .refl s

theorem execCaptureTimeout_keeps {w : Fin 64} {s t : State} (h : execCaptureTimeout w s = .next t) : Keeps false s t := by
  unfold execCaptureTimeout at h
  split at h
  · cases h; exact .refl s
  · next d _ =>
    cases h
    refine .ite (fun hw => ?_) fun _ => .refl s
    have hopen : ((s.advanceTo d).shot w).state ≠ .free := fun hf => by
      rw [show (s.advanceTo d).shot w = s.shot w from rfl, hw] at hf
      cases hf
    exact (advanceTo_keeps s d).trans (sealShot_keeps .timeout hopen)

theorem execMeasurementComplete_keeps {s t : State} (h : execMeasurementComplete s = .next t) : Keeps b s t := by
  unfold execMeasurementComplete at h
  split at h <;> cases h
  · exact .refl s
  · exact (completeMeasurement_keeps s _).trans (nextMeasurement_keeps _ _)

theorem execInlineLineConsumed_keeps {s t : State} (h : execInlineLineConsumed s = .next t) : Keeps false s t := by
  unfold execInlineLineConsumed at h
  split at h
  · split at h
    · cases h; exact .refl s
    · split at h
      · cases h; exact .ite (fun _ => stopEngine_keeps s _) fun _ => .refl s
      · next hfifo =>
        split at h
        · next hu => cases h; exact consumeEntry_keeps hfifo hu
        · cases h
  · cases h; exact .refl s

theorem execReplayLineReturned_keeps {s t : State} (h : execReplayLineReturned s = .next t) : Keeps false s t := by
  unfold execReplayLineReturned at h
  split at h
  · split at h
    · cases h; exact .refl s
    · split at h
      · cases h; exact .refl s
      · next hline =>
        split at h
        · next hu => cases h; exact (returnedLine_keeps hline).trans (useReplayLine_keeps hu)
        · cases h
  · cases h; exact .refl s

theorem execLensPresentActive_keeps {s t : State} (h : execLensPresentActive s = .next t) : Keeps b s t := by
  cases h
  have hpin : Keeps b s { s with lensPin := true } := .of_blocks
  exact .ite (fun _ => hpin.trans (attachLens_keeps _)) fun _ => hpin

theorem execLensPresentInactive_keeps {s t : State} (h : execLensPresentInactive s = .next t) : Keeps b s t := by
  cases h
  have hpin : Keeps b s { s with lensPin := false } := .of_blocks
  exact .ite (fun _ => hpin) fun _ => hpin.trans (detachLens_keeps _)

theorem execLensExchangeEnd_keeps {reply : List Byte} {s t : State} (h : execLensExchangeEnd reply s = .next t) : Keeps b s t := by
  unfold execLensExchangeEnd at h
  split at h <;> cases h
  · exact .refl s
  · exact (advanceTo_keeps s _).trans (endExchange_keeps _ _ reply)

theorem execIdentRetryTimerExpiry_keeps {s t : State} (h : execIdentRetryTimerExpiry s = .next t) : Keeps b s t := by
  unfold execIdentRetryTimerExpiry at h
  split at h <;> cases h
  · exact .refl s
  · refine Keeps.trans ?_ (arbitrate_keeps _)
    exact .of_blocks

theorem execPollTimerExpiry_keeps {s t : State} (h : execPollTimerExpiry s = .next t) : Keeps b s t := by
  unfold execPollTimerExpiry at h
  split at h <;> cases h
  · exact .refl s
  · exact .ite (fun _ => (advanceTo_keeps s _).trans (pollDue_keeps _)) fun _ => .refl s

theorem execNoticeAgeExpiry_keeps {s t : State} (h : execNoticeAgeExpiry s = .next t) : Keeps b s t := by
  unfold execNoticeAgeExpiry at h
  split at h <;> cases h
  · exact .refl s
  · exact .ite (fun _ => (advanceTo_keeps s _).trans (evaluateAttention_keeps _)) fun _ => .refl s

theorem execAttentionPulseEnd_keeps {s t : State} (h : execAttentionPulseEnd s = .next t) : Keeps b s t := by
  unfold execAttentionPulseEnd at h
  split at h <;> cases h
  · exact .refl s
  · exact .of_blocks

theorem exec_lawful {i : Instr} {s t : State} (h : exec i s = .next t) : Lawful s t := by
  have lift (k : Keeps false s t) : Lawful s t := k.lawful
  cases i with
  | powerOnReset caSel memSize => exact execPowerOnReset_lawful h
  | startUpComplete => exact lift (execStartUpComplete_keeps h)
  | linkReset => exact execLinkReset_lawful h
  | requestArrives r => exact execRequestArrives_lawful h
  | takeWrite => exact execTakeWrite_lawful h
  | takeRead => exact (execTakeRead_serves (b := false) h).lawful
  | dramGrant => exact (execDramGrant_serves (b := false) h).lawful
  | ownRequestEnters q => exact lift (execOwnRequestEnters_keeps h)
  | readDataReturn k => exact (execReadDataReturn_serves (b := false) h).lawful
  | readResponseSent => exact (execReadResponseSent_serves (b := false) h).lawful
  | orderRecordFetched => exact lift (execOrderRecordFetched_keeps h)
  | stagingImageFetched => exact lift (execStagingImageFetched_keeps h)
  | unknownOrder => exact lift (execUnknownOrder_keeps h)
  | setPool => exact lift (execSetPool_keeps h)
  | setPoolMarksOnly => exact lift (execSetPoolMarksOnly_keeps h)
  | setProfile => exact lift (runOrder_keeps (fun o img => setProfileRule_keeps o img s) h)
  | selectProfile => exact lift (runOrder_keeps (fun o img => selectProfileRule_keeps o img s) h)
  | sealOrder => exact lift (runOrder_keeps (fun o img => sealOrderRule_keeps o img s) h)
  | discard => exact lift (runOrder_keeps (fun o img => discardOrder_keeps o img s) h)
  | protect => exact lift (runOrder_keeps (fun o img => protectRule_keeps _ o img s) h)
  | unprotect => exact lift (runOrder_keeps (fun o img => protectRule_keeps _ o img s) h)
  | rate => exact lift (runOrder_keeps (fun o img => rateRule_keeps o img s) h)
  | setFocus => exact lift (runOrder_keeps (fun o img => setFocusRule_keeps o img s) h)
  | focusStart => exact lift (runOrder_keeps (fun o img => focusStartRule_keeps o img s) h)
  | lensMessage => exact lift (runOrder_keeps (fun o img => lensMessageOrder_keeps o img s) h)
  | loadTone => exact lift (runOrder_keeps (fun o img => loadToneRule_keeps o img s) h)
  | redevelop => exact lift (runOrder_keeps (fun o img => redevelopRule_keeps o img s) h)
  | cardDone => exact lift (runOrder_keeps (fun o img => cardDoneRule_keeps o img s) h)
  | cardRetry => exact lift (runOrder_keeps (fun o img => cardRetryRule_keeps o img s) h)
  | setSelection => exact lift (runOrder_keeps (fun o img => setSelectionRule_keeps o img s) h)
  | tetherDone => exact lift (runOrder_keeps (fun o img => tetherDoneRule_keeps o img s) h)
  | sendNow => exact lift (runOrder_keeps (fun o img => sendNowRule_keeps o img s) h)
  | setNotice => exact lift (runOrder_keeps (fun o img => setNoticeRule_keeps o img s) h)
  | captureTimeout w => exact lift (execCaptureTimeout_keeps h)
  | measurementComplete => exact lift (execMeasurementComplete_keeps h)
  | inlineLineConsumed => exact lift (execInlineLineConsumed_keeps h)
  | replayLineReturned => exact lift (execReplayLineReturned_keeps h)
  | lensPresentActive => exact lift (execLensPresentActive_keeps h)
  | lensPresentInactive => exact lift (execLensPresentInactive_keeps h)
  | lensExchangeEnd reply => exact lift (execLensExchangeEnd_keeps h)
  | identRetryTimerExpiry => exact lift (execIdentRetryTimerExpiry_keeps h)
  | pollTimerExpiry => exact lift (execPollTimerExpiry_keeps h)
  | noticeAgeExpiry => exact lift (execNoticeAgeExpiry_keeps h)
  | attentionPulseEnd => exact lift (execAttentionPulseEnd_keeps h)

theorem step_lawful {s t : State} (h : step s = .next t) : Lawful s t := by
  unfold step at h
  split at h
  · cases h
    exact (Keeps.of_blocks (b := false)).lawful
  · next c rest _ =>
    have hcommand := exec_lawful h
    have hqueue : Lawful s { s with pending := rest } := (Keeps.of_blocks (b := false)).lawful
    exact ⟨hcommand.mem ∘ hqueue.mem, hcommand.places ∘ hqueue.places, hcommand.indices ∘ hqueue.indices,
      hcommand.pool ∘ hqueue.pool, hcommand.sequence ∘ hqueue.sequence, hcommand.credits ∘ hqueue.credits, hcommand.drive⟩

end Sys2Proof.Machine

open Sys2Proof Sys2Proof.Machine

/-- Settles O3: power-on reset, at whatever straps, pin level and queue, meets every law. -/
theorem resetStateSound : Obligations.ResetStateSound :=
  ⟨rfl, powerOn_within _ _ _ _, powerOn_indices _ _ _ _, rfl, powerOn_sequence _ _ _ _, powerOn_pool _ _ _ _⟩

/-- Settles O4: every write enters the memory by `Memory.writeLine`, which keeps the canonical form. -/
theorem memoryCanonicalKept : Obligations.MemoryCanonicalKept := fun _ _ hs h => (step_lawful h).mem hs

/-- Settles O5. -/
theorem queuesAndIndicesKeepBounds : Obligations.QueuesAndIndicesKeepBounds := fun _ _ h =>
  ⟨(step_lawful h).places, (step_lawful h).indices⟩

/-- Settles O6. -/
theorem poolGranulesStayAccounted : Obligations.PoolGranulesStayAccounted := fun _ _ hs h => (step_lawful h).pool hs

/-- Settles O7. -/
theorem creditsBalanceKept : Obligations.CreditsBalanceKept := fun _ _ hs h => (step_lawful h).credits hs

/-- Settles O8: a DRIVE exchange in flight after a step was in flight before it, or no shot is CAPTURING after it. -/
theorem noDriveBeginsWhileCapturing : Obligations.NoDriveBeginsWhileCapturing := by
  intro s t h hdriving hbegan
  unfold driving at hdriving
  unfold ExchangeBegan at hbegan
  split at hdriving
  · next x hx =>
    rw [hx] at hbegan
    have hdrive : x.request.isDrive = true := by
      unfold LensRequest.isDrive
      split at hdriving <;> simp_all
    obtain ⟨y, hy, hrequest, hsince⟩ | hnone := (step_lawful h).drive x hx hdrive
    · exact absurd hrequest ((hbegan y hy).resolve_right fun hne => hne hsince)
    · exact capturingCount_eq_zero.mpr hnone
  · cases hdriving

/-- Settles O9. -/
theorem sequenceNumbersStayDistinct : Obligations.SequenceNumbersStayDistinct := fun _ _ hs h => (step_lawful h).sequence hs

end

section
/-! PROOFS. What the part's own work comes to where nothing waits and places are free: a line, a notice and a status byte enter at once,
and the bytes they leave in memory. Settles O28, O31, O32 and O33. -/

namespace Sys2Proof.Machine

set_option Elab.async false

/-! ### One piece of work after another -/

/-- The state with other work that waits. -/
def State.withWork (s : State) (ws : List OwnWork) : State := { s with port := { s.port with work := ws } }

@[simp] theorem State.withWork_work (s : State) (ws : List OwnWork) : (s.withWork ws).port.work = ws := rfl

@[simp] theorem State.withWork_mem (s : State) (ws : List OwnWork) : (s.withWork ws).mem = s.mem := rfl

/-- What a line holds does not depend on the work that waits. -/
theorem ownLineWrite_withWork (s : State) (ws : List OwnWork) (l : OwnLine) : ownLineWrite (s.withWork ws) l = ownLineWrite s l := by
  have hcursor (n : Nat) : cursorItems (s.withWork ws) n = cursorItems s n := by
    unfold cursorItems
    rfl
  cases l with
  | cursor n => simp only [ownLineWrite, hcursor]; rfl
  | _ => rfl

theorem State.withWork_nil {s : State} (h : s.port.work = []) : s.withWork [] = s := by
  rw [State.withWork, ← h]

theorem settle_nil {s : State} (n : Nat) (h : s.port.work = []) : settle n s = s := by
  cases n with
  | zero => rfl
  | succ n => simp only [settle, h]

theorem settle_cons {s t : State} {w : OwnWork} {ws : List OwnWork} (n : Nat) (h : s.port.work = w :: ws)
    (hrun : runWork w (s.withWork ws) = some t) : settle (n + 1) s = settle n t := by
  unfold State.withWork at hrun
  simp only [settle, h, hrun]

/-- R56: with nothing waiting a piece of work begins at once. -/
theorem emit_idle {s : State} (w : OwnWork) (h : s.port.work = []) : emit s w = goOn (settle 8 (s.withWork [w])) := by
  simp only [emit, h, List.isEmpty_nil, if_true]
  rfl

theorem writeRoom_iff {s : State} : writeRoom s = true ↔ s.port.writes.length < 32 := decide_eq_true_iff

theorem runWork_line {s : State} (l : OwnLine) (h : s.port.writes.length < 32) :
    runWork (.line l) s = some (enterWrite s (ownLineWrite s l)) := if_pos (writeRoom_iff.mpr h)

/-! ### Lines and notices that find a place -/

/-- R56: with nothing waiting and a place free, a line enters at once. -/
theorem emitLine_room {s : State} (l : OwnLine) (hwork : s.port.work = []) (hroom : s.port.writes.length < 32) :
    emitLine s l = enterWrite s (ownLineWrite s l) := by
  have hnone : (s.port.work.contains (.line l)) = false := by rw [hwork]; rfl
  have hrun : runWork (.line l) ((s.withWork [.line l]).withWork []) = some (enterWrite s (ownLineWrite s l)) := by
    rw [show (s.withWork [.line l]).withWork [] = s from State.withWork_nil hwork]
    exact runWork_line l hroom
  have hwork' : (enterWrite s (ownLineWrite s l)).port.work = [] := hwork
  rw [emitLine, hnone, if_neg Bool.false_ne_true, emit_idle _ hwork, settle_cons 7 rfl hrun, settle_nil 7 hwork', goOn_nil _ hwork']

/-- R171: a notice that has been written, with its cursor page line, before the attention condition is evaluated. -/
def noticeEntered (s : State) (n : Notice) : State :=
  (enterWrite (writeNotice s n) (ownLineWrite (writeNotice s n) (.cursor 3))).withWork []

theorem takeNotice_room {s : State} (n : Notice) (hwork : s.port.work = []) (hroom : s.port.writes.length < 32)
    (hring : unconsumedCount s < 255) : takeNotice n s = some (writeNotice s n) := by
  have hwaits : reportWaits s = false := by rw [reportWaits, hwork]; rfl
  have hplaces : ¬Config.noticePlaces ≤ unconsumedCount s := Nat.not_le.mpr hring
  rw [takeNotice, if_neg hplaces, writeRoom_iff.mpr hroom, hwaits]
  rfl

theorem evaluateAttention_port (s : State) : (evaluateAttention s).port = s.port := by
  obtain ⟨c, l, p, e⟩ := evaluateAttention_cases s
  rw [e]

theorem evaluateAttention_mem (s : State) : (evaluateAttention s).mem = s.mem := by
  obtain ⟨c, l, p, e⟩ := evaluateAttention_cases s
  rw [e]

/-- R171, R174: a written notice's cursor page line follows, with a place free, and the condition is evaluated. -/
theorem settle_notice {s : State} (k : Nat) {ws : List OwnWork} (h : s.port.work = .line (.cursor 3) :: .attention :: ws)
    (hroom : s.port.writes.length < 32) :
    settle (k + 2) s = settle k (evaluateAttention ((enterWrite s (ownLineWrite s (.cursor 3))).withWork ws)) := by
  have hline : runWork (.line (.cursor 3)) (s.withWork (.attention :: ws)) =
      some ((enterWrite s (ownLineWrite s (.cursor 3))).withWork (.attention :: ws)) := by
    rw [runWork_line (s := s.withWork (.attention :: ws)) _ hroom, ownLineWrite_withWork]
    rfl
  have hattention : runWork .attention (((enterWrite s (ownLineWrite s (.cursor 3))).withWork (.attention :: ws)).withWork ws) =
      some (evaluateAttention ((enterWrite s (ownLineWrite s (.cursor 3))).withWork ws)) := rfl
  rw [settle_cons (k + 1) h hline, settle_cons k (State.withWork_work _ _) hattention]

/-- R171, R174: with nothing waiting and places free, a notice is written, its cursor page line follows, and the condition is
evaluated. -/
theorem hand_room {s : State} (n : Notice) (hwork : s.port.work = []) (hroom : s.port.writes.length + 2 ≤ 32)
    (hring : unconsumedCount s < 255) : hand s n = evaluateAttention (noticeEntered s n) := by
  have hrun : runWork (.notice n .waits) ((s.withWork [.notice n .waits]).withWork []) = some (writeNotice s n) := by
    rw [show (s.withWork [.notice n .waits]).withWork [] = s from State.withWork_nil hwork]
    exact takeNotice_room n hwork (by omega) hring
  have hroom' : (writeNotice s n).port.writes.length < 32 := by
    simp only [writeNotice, enterWrite, List.length_append, List.length_singleton]
    omega
  have hwork' : (writeNotice s n).port.work = [.line (.cursor 3), .attention] := by
    show _ :: _ :: s.port.work = _
    rw [hwork]
  have hend : (evaluateAttention (noticeEntered s n)).port.work = [] := by rw [evaluateAttention_port]; rfl
  rw [hand, emit_idle _ hwork, settle_cons 7 rfl hrun, settle_notice 5 hwork' hroom', ← noticeEntered,
    settle_nil 5 hend, goOn_nil _ hend]

/-- R171: with nothing waiting, a free place and a full ring, a notice is dropped, and its cursor page line follows. -/
theorem hand_full {s : State} (n : Notice) (hwork : s.port.work = []) (hroom : s.port.writes.length < 32)
    (hring : 255 ≤ unconsumedCount s) :
    hand s n = enterWrite (countDrop s n) (ownLineWrite (countDrop s n) (.cursor 3)) := by
  have hrun : runWork (.notice n .waits) ((s.withWork [.notice n .waits]).withWork []) = some (dropNotice s n) := by
    rw [show (s.withWork [.notice n .waits]).withWork [] = s from State.withWork_nil hwork]
    exact if_pos hring
  have hline : runWork (.line (.cursor 3)) ((dropNotice s n).withWork []) =
      some (enterWrite (countDrop s n) (ownLineWrite (countDrop s n) (.cursor 3))) := by
    rw [show (dropNotice s n).withWork [] = countDrop s n from State.withWork_nil (s := countDrop s n) hwork]
    exact runWork_line _ hroom
  have hwork' : (dropNotice s n).port.work = [.line (.cursor 3)] := by
    show _ :: s.port.work = _
    rw [hwork]
  have hend : (enterWrite (countDrop s n) (ownLineWrite (countDrop s n) (.cursor 3))).port.work = [] := hwork
  rw [hand, emit_idle _ hwork, settle_cons 7 rfl hrun, settle_cons 6 hwork' hline, settle_nil 6 hend, goOn_nil _ hend]

/-! ### The bytes of a notice -/

theorem padTo_length (n : Nat) (bs : List Byte) : (padTo n bs).length = n := by
  simp only [padTo, List.length_append, List.length_take, List.length_replicate]
  omega

theorem padTo_getD_padTo {n m i : Nat} (bs : List Byte) (h : i < n) (hnm : n ≤ m) :
    (padTo m (padTo n bs)).getD i 0 = (padTo n bs).getD i 0 := by
  have hlen : (padTo n bs).length = n := padTo_length n bs
  rw [padTo, List.getD_append _ _ _ _ (by rw [List.length_take, hlen]; omega), List.getD_eq_getElem?_getD,
    List.getElem?_take_of_lt (by omega), List.getD_eq_getElem?_getD]

/-- R171: what the 32 bytes of a ring slot read as once its half-line has been written. -/
theorem noticeWrite_read {m : Memory} (s : State) (k i : Nat) (n : Notice) (number : Nat) (hm : m.wf = true) (hi : i < 32) :
    (m.writeLine (noticeWrite s k (noticeBytes n number)).1 (noticeWrite s k (noticeBytes n number)).2.1
      (noticeWrite s k (noticeBytes n number)).2.2).read (slotAddr s k + i) = (noticeBytes n number).getD i 0 := by
  rw [Memory.read_writeLine _ _ _ _ hm]
  unfold noticeWrite slotAddr
  split
  · rw [rangeMask_getLsbD _ _ _ (by omega), show ∀ a : Nat, a + i - a = i from fun a => by omega]
    simp only [Nat.zero_le, decide_true, Bool.true_and, decide_eq_true_eq]
    rw [if_pos ⟨by omega, by omega, hi⟩]
    exact padTo_getD_padTo _ hi (by omega)
  · have hoff : ∀ a : Nat, a + 32 * k + i - (a + 32 * (k - 1)) = 32 + i := fun a => by omega
    rw [rangeMask_getLsbD _ _ _ (by omega), hoff]
    simp only [Bool.and_eq_true, decide_eq_true_eq]
    rw [if_pos ⟨by omega, by omega, by omega, by omega⟩]
    rw [List.getD_append_right _ _ _ _ (by simp), List.length_replicate, show 32 + i - 32 = i by omega]
    exact padTo_getD_padTo _ hi (by omega)

/-- A line of the part that lies outside the notice ring (R163). -/
theorem cursor_outside_ring (s : State) (c : Fin 9) (k i : Nat) : OutsideLine s (.cursor c) (slotAddr s k + i) := by
  intro j hj _
  have hc := c.isLt
  simp only [ownLineWrite, slotAddr, Config.cursorPage, Config.noticeRing]
  omega

/-- R171: the ring slot of a notice handed over where places are free. -/
theorem hand_room_read {s : State} (n : Notice) (hm : MemoryCanonical s) (hwork : s.port.work = [])
    (hroom : s.port.writes.length + 2 ≤ 32) (hring : unconsumedCount s < 255) {i : Nat} (hi : i < 32) :
    (hand s n).mem.read (slotAddr s s.notice.writeIndex + i) = (noticeBytes n s.notice.number).getD i 0 := by
  rw [hand_room n hwork hroom hring, evaluateAttention_mem, noticeEntered, State.withWork_mem]
  refine ((enterLine_reports (writeNotice s n) (.cursor 3)).mem _ (fun l hl => ?_) fun i hi => by omega).trans ?_
  · rw [List.mem_singleton.mp hl]
    exact cursor_outside_ring s 3 _ _
  · exact noticeWrite_read s _ i n _ hm hi

/-! ### The end of an order -/

/-- The order in progress is done with: the unit is idle. -/
def orderOver (s : State) : State := { s with order := { s.order with phase := .idle } }

/-- R167: an idle Order Unit takes the next pending order. -/
theorem takeOrder_idle {s : State} (h : s.order.phase = .idle) :
    (takeOrder s).mem = s.mem ∧ (takeOrder s).notice = s.notice ∧ (takeOrder s).port.work = s.port.work ∧
      (takeOrder s).order = { s.order with phase := if 0 < pendingOrders s then .fetching else .idle } := by
  unfold takeOrder
  by_cases hp : 0 < pendingOrders s
  · rw [h, if_pos (by simp [hp]), if_pos hp]
    rcases issueRead_cases { s with order := { s.order with phase := .fetching } } .orderRecord (orderAddr s s.order.taken) with
      ⟨-, -, e⟩ | ⟨-, e⟩ <;> rw [e] <;> exact ⟨rfl, rfl, rfl, rfl⟩
  · rw [if_neg (by simp [hp]), if_neg hp, ← h]
    exact ⟨rfl, rfl, rfl, rfl⟩

/-- R169: the last piece of work of an order. -/
theorem settle_nextOrder {s : State} (k : Nat) (h : s.port.work = [.nextOrder]) :
    goOn (settle (k + 1) s) = takeOrder (orderOver (s.withWork [])) := by
  have hrun : runWork .nextOrder (s.withWork []) = some (takeOrder (orderOver (s.withWork []))) := rfl
  have hwork : (takeOrder (orderOver (s.withWork []))).port.work = [] := (takeOrder_idle rfl).2.2.1
  rw [settle_cons k h hrun, settle_nil k hwork, goOn_nil _ hwork]

/-- R169 steps 1 and 2: the status byte is in and the taken index has risen; `ws` waits. -/
def statusEntered (s : State) (o : OrderRecord) (st : OrderStatus) (ws : List OwnWork) : State :=
  let t := enterWrite s (statusWrite s s.order.taken st)
  { t with order := { t.order with phase := .completing o, taken := (t.order.taken + 1) % 64 }, port := { t.port with work := ws } }

/-- R169 steps 1 and 2, and the cursor page line with the taken index; `ws` waits. -/
def statusShown (s : State) (o : OrderRecord) (st : OrderStatus) (ws : List OwnWork) : State :=
  enterWrite (statusEntered s o st ws) (ownLineWrite (statusEntered s o st ws) (.cursor 3))

/-- R169: with nothing waiting and places free, an order's completion comes to its notice, or to its last piece of work. -/
theorem finishOrder_shown {s : State} (o : OrderRecord) (st : OrderStatus) (hwork : s.port.work = [])
    (hroom : s.port.writes.length + 2 ≤ 32) :
    finishOrder s o st = goOn (settle 6 (statusShown s o st
      ((if o.notify then [.notice (orderNotice o st) .waits] else []) ++ [.nextOrder]))) := by
  have hroom' : (statusEntered s o st ((if o.notify then [.notice (orderNotice o st) .waits] else []) ++ [.nextOrder])).port.writes.length
      < 32 := by
    simp only [statusEntered, enterWrite, List.length_append, List.length_singleton]
    omega
  have hstatus : runWork (.orderStatus st false)
      ((({ s with order := { s.order with phase := .completing o } } : State).withWork [.orderStatus st false]).withWork []) =
      some (statusEntered s o st (.line (.cursor 3) :: ((if o.notify then [.notice (orderNotice o st) .waits] else []) ++ [.nextOrder]))) := by
    refine (if_pos (writeRoom_iff.mpr (show s.port.writes.length < 32 by omega))).trans ?_
    rfl
  have hline : runWork (.line (.cursor 3)) ((statusEntered s o st (.line (.cursor 3) ::
      ((if o.notify then [.notice (orderNotice o st) .waits] else []) ++ [.nextOrder]))).withWork
        ((if o.notify then [.notice (orderNotice o st) .waits] else []) ++ [.nextOrder])) =
      some (statusShown s o st ((if o.notify then [.notice (orderNotice o st) .waits] else []) ++ [.nextOrder])) :=
    runWork_line _ hroom'
  rw [finishOrder, emit_idle _ (by exact hwork), settle_cons 7 rfl hstatus, settle_cons 6 rfl hline]

/-- What waits is no part of the frame, at its end either. -/
theorem OnlyReports.withWork {ls : List OwnLine} {n : Nat} {s t : State} (h : OnlyReports ls n s t) (ws : List OwnWork) :
    OnlyReports ls n s (t.withWork ws) := ⟨h.blocks, h.port, h.notice, h.quiet, h.count, h.mem⟩

theorem writeNotice_unmarked_reports (s : State) {n : Notice} (h : n.fault = none) : OnlyReports [] 1 s (writeNotice s n) := by
  have hmarks : (writeNotice s n).notice.outstanding = s.notice.outstanding := by
    simp only [writeNotice, h]
    rfl
  have hall := writeNotice_reports s n
  rw [hmarks] at hall
  exact hall

theorem countDrop_unmarked_reports (s : State) {n : Notice} (h : n.fault = none) : OnlyReports [] 1 s (countDrop s n) := by
  have hmarks : (countDrop s n).notice.outstanding = s.notice.outstanding := by simp only [countDrop, h]
  have hall := countDrop_reports s n s.port.work
  rw [hmarks] at hall
  exact hall

/-- R171: a notice whose turn has come, with places free and work behind it, is written or dropped. -/
theorem settle_handed {s : State} {n : Notice} {m : NoticeStage} {ws : List OwnWork} (k : Nat)
    (hwork : s.port.work = .notice n m :: ws) (hwaits : OwnWork.overflow ∉ ws) (hfault : n.fault = none)
    (hroom : s.port.writes.length + 2 ≤ 32) :
    ∃ j u, k ≤ j ∧ settle (k + 3) s = settle j u ∧ u.port.work = ws ∧ OnlyReports [.cursor 3] 1 s u ∧
      (unconsumedCount s < 255 → u.notice.number = (s.notice.number + 1) % 65536) := by
  have hroom' : (s.withWork ws).port.writes.length < 32 := show s.port.writes.length < 32 by omega
  by_cases hring : unconsumedCount s < 255
  · have hnone : reportWaits (s.withWork ws) = false := by simpa [reportWaits] using hwaits
    have hplaces : ¬Config.noticePlaces ≤ unconsumedCount (s.withWork ws) := Nat.not_le.mpr hring
    have hrun : runWork (.notice n m) (s.withWork ws) = some (writeNotice (s.withWork ws) n) := by
      rw [runWork, takeNotice, if_neg hplaces, writeRoom_iff.mpr hroom', hnone]
      rfl
    have hwritten : (writeNotice (s.withWork ws) n).port.writes.length < 32 := by
      simp only [writeNotice, enterWrite, List.length_append, List.length_singleton]
      exact hroom
    refine ⟨k, _, le_refl k, (settle_cons (k + 2) hwork hrun).trans (settle_notice (ws := ws) k rfl hwritten), ?_, ?_, fun _ => ?_⟩
    · rw [evaluateAttention_port]
      rfl
    · have hline := ((writeNotice_unmarked_reports (s.withWork ws) hfault).trans (enterLine_reports _ (.cursor 3))).withWork ws
      exact OnlyReports.ofWork ws (hline.evaluate rfl rfl rfl ⟨_, rfl, rfl⟩)
    · obtain ⟨c, l, p, e⟩ := evaluateAttention_cases ((enterWrite (writeNotice (s.withWork ws) n)
        (ownLineWrite (writeNotice (s.withWork ws) n) (.cursor 3))).withWork ws)
      rw [e]
      rfl
  · have hrun : runWork (.notice n m) (s.withWork ws) = some (dropNotice (s.withWork ws) n) :=
      if_pos (show Config.noticePlaces ≤ unconsumedCount (s.withWork ws) from Nat.not_lt.mp hring)
    have hline : runWork (.line (.cursor 3)) ((dropNotice (s.withWork ws) n).withWork ws) =
        some (enterWrite (countDrop (s.withWork ws) n) (ownLineWrite (countDrop (s.withWork ws) n) (.cursor 3))) := by
      rw [show (dropNotice (s.withWork ws) n).withWork ws = countDrop (s.withWork ws) n from rfl]
      exact runWork_line _ hroom'
    refine ⟨k + 1, _, by omega, (settle_cons (k + 2) hwork hrun).trans (settle_cons (k + 1) rfl hline), rfl, ?_, fun h => absurd h hring⟩
    exact OnlyReports.ofWork ws ((countDrop_unmarked_reports (s.withWork ws) hfault).trans (enterLine_reports _ (.cursor 3)))

/-- R169: with nothing waiting and places free, an order that completes is done with: its status byte, its cursor page line, its notice
when it asks for one, and the next order's turn. -/
theorem finishOrder_room {s : State} (o : OrderRecord) (st : OrderStatus) (hwork : s.port.work = [])
    (hroom : s.port.writes.length + 4 ≤ 32) :
    ∃ ws u, finishOrder s o st = takeOrder (orderOver (u.withWork [])) ∧
      OnlyReports [.cursor 3] (if o.notify then 1 else 0) (statusShown s o st ws) u ∧
      (o.notify = true → unconsumedCount s < 255 → u.notice.number = (s.notice.number + 1) % 65536) := by
  have hshown := finishOrder_shown o st hwork (by omega)
  cases hn : o.notify with
  | false =>
    rw [hn] at hshown
    refine ⟨_, _, hshown.trans (settle_nextOrder 5 rfl), (OnlyReports.refl _).mono (by simp) (le_refl 0), nofun⟩
  | true =>
    rw [hn] at hshown
    have hplaces : (statusShown s o st ([.notice (orderNotice o st) .waits] ++ [.nextOrder])).port.writes.length + 2 ≤ 32 := by
      simp only [statusShown, statusEntered, enterWrite, List.length_append, List.length_singleton]
      omega
    obtain ⟨j, u, hj, hsettle, hu, hreports, hnumber⟩ := settle_handed (n := orderNotice o st) (m := .waits) (ws := [.nextOrder]) 3
      (s := statusShown s o st ([.notice (orderNotice o st) .waits] ++ [.nextOrder])) rfl (by simp) rfl hplaces
    obtain ⟨i, rfl⟩ : ∃ i, j = i + 1 := ⟨j - 1, by omega⟩
    refine ⟨_, u, ?_, hreports, fun _ hring => hnumber hring⟩
    rw [hshown, if_pos rfl, hsettle, settle_nextOrder i hu]

/-- R169: the status byte of an order record, and the bytes beside it. -/
theorem statusEntered_read {s : State} (o : OrderRecord) (st : OrderStatus) (ws : List OwnWork) (hm : MemoryCanonical s) (a : Nat) :
    (statusEntered s o st ws).mem.read a =
      if a = orderAddr s s.order.taken + 4 then BitVec.ofNat 8 st.code else s.mem.read a := by
  refine (Memory.read_writeLine _ _ _ _ hm a).trans ?_
  rw [statusWrite, rangeMask_getLsbD _ _ _ (by omega)]
  simp only [Bool.and_eq_true, decide_eq_true_eq]
  by_cases ha : a = orderAddr s s.order.taken + 4
  · rw [if_pos ha, if_pos (by omega), ha, show orderAddr s s.order.taken + 4 - orderAddr s s.order.taken = 4 by omega]
    rfl
  · rw [if_neg ha, if_neg (by omega)]

end Sys2Proof.Machine

open Sys2Proof Sys2Proof.Machine

/-- Settles O31. -/
theorem orderCompletes : Obligations.OrderCompletes := by
  intro s o st hm hindices hwork hroom
  obtain ⟨ws, u, hfinish, hreports, hnumber⟩ := finishOrder_room o st hwork hroom
  have hshown : OnlyReports [.cursor 3] (if o.notify then 1 else 0) (statusEntered s o st ws) u :=
    ((enterLine_reports (statusEntered s o st ws) (.cursor 3)).trans hreports).mono (by simp) (by omega)
  obtain ⟨hmem, hnotice, -, horder⟩ := takeOrder_idle (s := orderOver (u.withWork [])) rfl
  have hu : u.order = (statusEntered s o st ws).order := hshown.order
  have hread (a : Nat) (hline : Outside (controlBase s.caSel + Config.cursorPage + 64 * 3) 64 a)
      (hring : o.notify = true → Outside (slotAddr s s.notice.writeIndex) 32 a) :
      (finishOrder s o st).mem.read a =
        if a = orderAddr s s.order.taken + 4 then BitVec.ofNat 8 st.code else s.mem.read a := by
    rw [hfinish, hmem, ← statusEntered_read o st ws hm a]
    refine hshown.mem a (fun l hl => ?_) fun i hi => ?_
    · rw [List.mem_singleton.mp hl]
      intro j hj _
      simp only [Outside] at hline
      simp only [ownLineWrite]
      show a ≠ controlBase s.caSel + _ + 64 * 3 + j
      omega
    · cases hn : o.notify with
      | false => rw [hn] at hi; simp at hi
      | true =>
        rw [hn] at hi
        obtain rfl : i = 0 := by simpa using hi
        exact hring hn
  refine ⟨_, rfl, finishOrder_ownWork s o st, ?_, ?_, ?_, fun hn hring => ?_, fun hn => ?_, fun a ha hline hring => ?_⟩
  · rw [hfinish, horder]
    exact congrArg OrderUnit.taken hu
  · rw [hread _ ?_ fun _ => ?_, if_pos rfl]
    · simp only [Outside, orderAddr, Config.cursorPage, Config.orderRing]
      omega
    · have := hindices.taken
      simp only [Outside, slotAddr, orderAddr, Config.noticeRing, Config.orderRing]
      omega
  · rw [hfinish, horder]
    show (if 0 < (u.order.post + 64 - u.order.taken) % 64 then _ else _) = _
    rw [hu]
    rfl
  · rw [hfinish, hnotice]
    exact hnumber hn hring
  · rw [hfinish, hnotice]
    rw [hn] at hshown
    exact hshown.quiet rfl
  · rw [hread a hline hring, if_neg ha]

/-- Settles O28. -/
theorem heldRequestEnters : Obligations.HeldRequestEnters := by
  intro s
  refine ⟨fun p a more hheld hroom => ?_, fun l hwork hroom hrow => ?_⟩
  · simp only [exec, execOwnRequestEnters, enterHeldRead, hheld, if_pos (show s.port.reads.length < Config.readPlaces from hroom)]
    rfl
  · have hrun : runWork (.line l) (s.withWork []) = some (enterWrite (s.withWork []) (ownLineWrite s l)) := by
      rw [← ownLineWrite_withWork s [] l]
      exact runWork_line l hroom
    have hheld : enterHeldWrite s = enterWrite (s.withWork []) (ownLineWrite s l) := by
      rw [enterHeldWrite, settle_cons 0 hwork hrun, settle_nil 0 rfl, goOn_nil _ rfl]
    have hrun : (enterWrite (s.withWork []) (ownLineWrite s l)).engine.run.rowWaits = false := hrow
    simp only [exec, execOwnRequestEnters, hheld, engineContinue, hrun, Bool.false_and, if_false, Bool.false_eq_true]
    rfl

/-- Settles O32. -/
theorem lineWrittenBack : Obligations.LineWrittenBack := by
  intro s l hm hwork hroom
  refine ⟨_, rfl, emitLine_reports s l, fun i hi hmask => ?_, by rw [emitLine_room l hwork hroom]; rfl⟩
  rw [emitLine_room l hwork hroom]
  refine (Memory.read_writeLine _ _ _ _ hm _).trans ?_
  rw [show (ownLineWrite s l).1 + i - (ownLineWrite s l).1 = i by omega, if_pos ⟨by omega, by omega, hmask⟩]

/-- Settles O33: where places are free, handing over a notice writes it, or drops it when the ring is full. -/
theorem noticeWrittenOrDropped : Obligations.NoticeWrittenOrDropped := by
  intro s n hm hindices hwork hroom
  refine ⟨_, rfl, hand_marked_reports s n, hand_marks s n, fun hring => ?_, fun hring => ?_⟩
  · have hslot := fun i hi => hand_room_read n hm hwork hroom hring (i := i) hi
    have heval := evaluateAttention_evaluated (noticeEntered s n)
    have hcond : attentionCondition (evaluateAttention (noticeEntered s n)) = attentionCondition (noticeEntered s n) := by
      obtain ⟨c, l, p, e⟩ := evaluateAttention_cases (noticeEntered s n)
      rw [e]
      rfl
    refine ⟨hslot, ?_⟩
    rw [hand_room n hwork hroom hring, hcond]
    obtain ⟨c, l, p, e⟩ := evaluateAttention_cases (noticeEntered s n)
    rw [e] at heval ⊢
    refine ⟨rfl, rfl, rfl, rfl, fun c hc => ?_, ⟨heval.standing, heval.level, heval.rises, heval.keeps⟩⟩
    simp [noticeEntered, writeNotice, enterWrite, State.withWork, hc]
  · rw [hand_full n hwork (by omega) (by omega)]
    refine ⟨rfl, rfl, rfl, rfl, fun c hc => ?_, rfl, rfl⟩
    simp [enterWrite, countDrop, hc]

end

section
/-! PROOFS. Frames that compose: reports over other blocks that change, lines that enter before a notice, and fault records. Then what the
Link Port does with a request it takes. Settles O1, O2, O11 to O16, O22, O23 and O27. -/

namespace Sys2Proof.Machine

set_option Elab.async false

/-! ### Reports beside other changes -/

/-- Whatever else of the state is replaced, alike before and after, the reports are what they were. -/
theorem OnlyReports.rebase {ls : List OwnLine} {n : Nat} {s t s' t' : State} (h : OnlyReports ls n s t)
    (blocks : { t' with mem := s'.mem, port := s'.port, notice := s'.notice } = s') (caSel : s'.caSel = s.caSel := by rfl)
    (mem : s'.mem = s.mem := by rfl) (port : s'.port = s.port := by rfl) (notice : s'.notice = s.notice := by rfl)
    (mem' : t'.mem = t.mem := by rfl) (port' : t'.port = t.port := by rfl) (notice' : t'.notice = t.notice := by rfl) :
    OnlyReports ls n s' t' where
  blocks := blocks
  port := by rw [port, port']; exact h.port
  notice := by rw [notice, notice']; exact h.notice
  quiet hn := by rw [notice, notice']; exact h.quiet hn
  count := by rw [notice, notice']; exact h.count
  mem a hl hn := by
    rw [mem, mem']
    rw [notice] at hn
    refine h.mem a (fun l hm => (hl l hm).congr caSel.symm) fun i hi => ?_
    have := hn i hi
    rwa [slotAddr, caSel] at this

/-- Nor do the outstanding marks matter to what is reported. -/
theorem OnlyReports.withMarks {ls : List OwnLine} {n : Nat} {s t : State} (h : OnlyReports ls n s t) (o : PerClass Outstanding) :
    OnlyReports ls n (s.withMarks o) (t.withMarks o) where
  blocks := by
    have e := congrArg (fun x : State => x.withMarks o) h.blocks
    exact e
  port := h.port
  notice := by
    have e := congrArg (fun x : NoticeUnit => { x with outstanding := o }) h.notice
    exact e
  quiet hn := congrArg (fun x : NoticeUnit => { x with outstanding := o }) (h.quiet hn)
  count := by
    obtain ⟨j, d, hle, h1, h2, h3, h4, h5⟩ := h.count
    exact ⟨j, d, hle, h1, h2, h3, h4, h5⟩
  mem := h.mem

/-! ### Lines that find a place before a notice -/

/-- At most k lines have entered between s and t, each at once where places are free. -/
structure LinesIn (k : Nat) (s t : State) : Prop where
  caSel : t.caSel = s.caSel
  now : t.now = s.now
  notice : t.notice = s.notice
  mem : MemoryCanonical s → MemoryCanonical t
  room : s.port.work = [] → s.port.writes.length + k ≤ 32 → t.port.work = [] ∧ t.port.writes.length ≤ s.port.writes.length + k

theorem LinesIn.of_ports {s t : State} (mem : t.mem = s.mem := by rfl) (port : t.port = s.port := by rfl)
    (notice : t.notice = s.notice := by rfl) (caSel : t.caSel = s.caSel := by rfl) (now : t.now = s.now := by rfl) : LinesIn 0 s t :=
  ⟨caSel, now, notice, fun h => by rwa [MemoryCanonical, mem], fun h _ => by rw [port]; exact ⟨h, Nat.le_add_right _ _⟩⟩

theorem LinesIn.trans {k n : Nat} {s t u : State} (h : LinesIn k s t) (i : LinesIn n t u) : LinesIn (k + n) s u where
  caSel := i.caSel.trans h.caSel
  now := i.now.trans h.now
  notice := i.notice.trans h.notice
  mem := i.mem ∘ h.mem
  room hwork hroom := by
    obtain ⟨hwork', hlen⟩ := h.room hwork (by omega)
    obtain ⟨hwork'', hlen'⟩ := i.room hwork' (by omega)
    exact ⟨hwork'', by omega⟩

theorem LinesIn.mono {k n : Nat} {s t : State} (h : LinesIn k s t) (hk : k ≤ n) : LinesIn n s t :=
  ⟨h.caSel, h.now, h.notice, h.mem, fun hwork hroom => by
    obtain ⟨hwork', hlen⟩ := h.room hwork (by omega)
    exact ⟨hwork', by omega⟩⟩

theorem emitLine_linesIn (s : State) (l : OwnLine) : LinesIn 1 s (emitLine s l) where
  caSel := emitLine_caSel s l
  now := emitLine_now s l
  notice := (emitLine_reports s l).quiet rfl
  mem := (emitLine_keeps (b := false) s l).mem
  room hwork hroom := by
    rw [emitLine_room l hwork (by omega)]
    exact ⟨hwork, by simp [enterWrite]⟩

theorem mirror_linesIn (s : State) (w : Fin 64) (ls : List (Fin 64)) : LinesIn ls.length s (mirror s w ls) := by
  unfold mirror
  induction ls generalizing s with
  | nil => exact .of_ports
  | cons l ls ih => exact ((emitLine_linesIn s _).trans (ih _)).mono (by simp [Nat.add_comm])

theorem publish_linesIn (s : State) (n : Fin 9) : LinesIn 1 s (publish s n) := emitLine_linesIn s _

/-- A notice handed over behind at most k lines, where places are free. -/
theorem LinesIn.hand_read {k : Nat} {s t : State} (h : LinesIn k s t) (n : Notice) (hm : MemoryCanonical s) (hwork : s.port.work = [])
    (hroom : s.port.writes.length + k + 2 ≤ 32) (hring : unconsumedCount s < 255) :
    (hand t n).notice.number = (s.notice.number + 1) % 65536 ∧
      ∀ i, i < 32 → (hand t n).mem.read (slotAddr s s.notice.writeIndex + i) = (noticeBytes n s.notice.number).getD i 0 := by
  obtain ⟨hwork', hlen⟩ := h.room hwork (by omega)
  have hring' : unconsumedCount t < 255 := by rwa [unconsumedCount, h.notice]
  refine ⟨?_, fun i hi => ?_⟩
  · rw [hand_room n hwork' (by omega) hring']
    obtain ⟨c, l, p, e⟩ := evaluateAttention_cases (noticeEntered t n)
    rw [e]
    show (t.notice.number + 1) % 65536 = _
    rw [h.notice]
  · have hread := hand_room_read n (h.mem hm) hwork' (by omega) hring' hi
    rwa [slotAddr, h.caSel, h.notice] at hread

theorem LinesIn.hand_recorded {k : Nat} {s t : State} (h : LinesIn k s t) (n : Notice) : NoticeRecorded k n s (hand t n) :=
  fun hm _ hwork hroom hring => h.hand_read n hm hwork hroom hring

/-! ### Faults -/

/-- R11: the counter of a plain-space fault has risen, and line 7 with it unless the counter was at its end. -/
def plainCounted (s : State) (c : SourceClass) : State :=
  let t := { s with plainFaults := s.plainFaults.set c (hold32 (s.plainFaults.get c + 1)) }
  if decide (hold32 (s.plainFaults.get c + 1) ≠ s.plainFaults.get c) then publish t 7 else t

/-- R11: the PLAIN FAULT notice. -/
def plainFaultNotice (s : State) (c : SourceClass) (kind : FaultKind) (addr : Nat) : Notice :=
  { plainNotice .plainFault 0 (byte1 c.code ++ byte1 kind.code ++ leBytes 8 addr ++
      leBytes 4 (hold32 (s.plainFaults.get c + 1))) with fault := some c }

/-- R11: a class's notice is on its way. -/
def faultHanded (s : State) (c : SourceClass) : State := s.withMarks (s.notice.outstanding.set c .handed)

theorem plainFault_eq (s : State) (c : SourceClass) (kind : FaultKind) (addr : Nat) :
    plainFault s c kind addr =
      if (plainCounted s c).notice.outstanding.get c = .clear then
        hand (faultHanded (plainCounted s c) c) (plainFaultNotice s c kind addr)
      else plainCounted s c := rfl

theorem plainCounted_reports (s : State) (c : SourceClass) :
    OnlyReports [.cursor 7] 0 { s with plainFaults := s.plainFaults.set c (hold32 (s.plainFaults.get c + 1)) } (plainCounted s c) := by
  simp only [plainCounted]
  split
  · exact publish_reports _ 7
  · exact (OnlyReports.refl _).mono (by simp) (le_refl 0)

theorem plainCounted_linesIn (s : State) (c : SourceClass) : LinesIn 1 s (plainCounted s c) := by
  simp only [plainCounted]
  split
  · exact (LinesIn.of_ports (t := { s with plainFaults := s.plainFaults.set c (hold32 (s.plainFaults.get c + 1)) })).trans
      (publish_linesIn _ 7)
  · exact (LinesIn.of_ports).mono (Nat.zero_le 1)

theorem PerClass.set_set {α : Type} (p : PerClass α) (c : SourceClass) (v u : α) : (p.set c v).set c u = p.set c u := by
  cases c <;> rfl

theorem PerClass.get_set {α : Type} (p : PerClass α) (c : SourceClass) (v : α) : (p.set c v).get c = v := by
  cases c <;> rfl

theorem PerClass.set_get {α : Type} (p : PerClass α) (c : SourceClass) : p.set c (p.get c) = p := by
  cases c <;> rfl

/-- R11, R171: handing over a PLAIN FAULT changes the mark of its class alone. -/
theorem hand_fault_marks (s : State) {n : Notice} {c : SourceClass} (h : n.fault = some c) :
    ∃ m, (hand s n).notice.outstanding = s.notice.outstanding.set c m := by
  have htail (u : State) (hu : ∃ m, u.notice.outstanding = s.notice.outstanding.set c m) (k : Nat)
      (hline : u.port.work = [.line (.cursor 3)]) : ∃ m, (goOn (settle k u)).notice.outstanding = s.notice.outstanding.set c m := by
    rw [(settle_line_reports k u (.cursor 3) hline).quiet rfl]
    exact hu
  rcases hand_cases s n with ⟨w, e⟩ | ⟨_, e⟩ | ⟨_, e⟩ | ⟨w, e⟩
  · exact ⟨_, by rw [e]; exact (PerClass.set_get _ c).symm⟩
  · obtain ⟨x, hx, ex⟩ := settle_noticeTail 5 (writeNotice { s with port := { s.port with work := [] } } n) (.cursor 3) rfl
    have hn : (writeNotice { s with port := { s.port with work := [] } } n).notice.outstanding =
        s.notice.outstanding.set c (.slot s.notice.writeIndex) := by
      simp only [writeNotice, h]
      rfl
    refine ⟨.slot s.notice.writeIndex, ?_⟩
    rw [e]
    rcases ex with ex | ex
    · rw [ex, hx.quiet rfl, hn]
    · obtain ⟨d, l, p, e'⟩ := evaluateAttention_cases x
      rw [ex, e', ← hn, ← hx.quiet rfl]
  · rw [e]
    refine htail _ ⟨.clear, ?_⟩ 7 rfl
    simp [dropNotice, countDrop, h]
  · rw [e]
    exact ⟨.clear, by simp [countDrop, h]⟩

theorem plainFault_faulted (s : State) (c : SourceClass) (kind : FaultKind) (addr : Nat) :
    PlainFaulted c kind s (plainFault s c kind addr) := by
  have hlines := plainCounted_linesIn s c
  have hcounted := plainCounted_reports s c
  rw [plainFault_eq, hlines.notice]
  split
  · next hclear =>
    have hmarks : (faultHanded (plainCounted s c) c).notice.outstanding = s.notice.outstanding.set c .handed := by
      show (plainCounted s c).notice.outstanding.set c .handed = _
      rw [hlines.notice]
    obtain ⟨m, hm⟩ := hand_fault_marks (faultHanded (plainCounted s c) c) (n := plainFaultNotice s c kind addr) rfl
    rw [hmarks, PerClass.set_set] at hm
    refine ⟨?_, fun hne => absurd hclear hne, fun _ => by rw [hm, PerClass.get_set], fun hcanonical _ hwork hroom hring _ => ?_⟩
    · exact (hcounted.withMarks _).trans (hand_marked_reports (faultHanded (plainCounted s c) c) (plainFaultNotice s c kind addr))
    · obtain ⟨hwork', hlen⟩ := hlines.room hwork (by omega)
      have hread (i : Nat) (hi : i < 32) := hand_room_read (s := faultHanded (plainCounted s c) c) (plainFaultNotice s c kind addr)
        (hlines.mem hcanonical) hwork' (show (plainCounted s c).port.writes.length + 2 ≤ 32 by omega)
        (show unconsumedCount (plainCounted s c) < 255 by rwa [unconsumedCount, hlines.notice]) hi
      have hslot : slotAddr (faultHanded (plainCounted s c) c) (faultHanded (plainCounted s c) c).notice.writeIndex =
          slotAddr s s.notice.writeIndex := by
        show controlBase (plainCounted s c).caSel + _ + 32 * (plainCounted s c).notice.writeIndex = _
        rw [hlines.caSel, hlines.notice]
        rfl
      rw [hslot] at hread
      exact ⟨hread 10 (by decide), hread 11 (by decide)⟩
  · next hclear =>
    refine ⟨?_, fun _ => hlines.notice, fun h => absurd h hclear, fun _ _ _ _ _ h => absurd h hclear⟩
    rw [hlines.notice]
    exact hcounted.mono (by simp) (by omega)

/-- R9: a shot's record with a fault counted. -/
def faultCounted (x : Shot) (c : SourceClass) (kind : FaultKind) (o : Nat) : Shot :=
  { x with
    faults := x.faults.set c (min (x.faults.get c + 1) 65535)
    firstFault := x.firstFault.or (some { cls := c, kind := kind, offset := o }) }

theorem shotFault_eq (s : State) (w : Fin 64) (c : SourceClass) (kind : FaultKind) (o : Nat) (p : Bool) :
    shotFault s w c kind o p =
      (let u := s.setShot w (faultCounted (s.shot w) c kind o)
      let new := min ((s.shot w).faults.get c + 1) 65535
      let t := if (s.shot w).faults.get c = 0 || (new % 256 = 0 && new ≠ (s.shot w).faults.get c) then mirror u w [6] else u
      if (s.shot w).faults.get c = 0 then
        hand t (shotNotice t w .accessFault 0 (byte1 c.code ++ byte1 kind.code ++ leBytes 4 o ++ byte1 (if p then 1 else 0)))
      else t) := by
  unfold shotFault faultCounted
  dsimp only [State.modShot]
  cases (s.shot w).firstFault <;> rfl

theorem shotFault_faulted (s : State) (w : Fin 64) (c : SourceClass) (kind : FaultKind) (o : Nat) (p : Bool) :
    ShotFaulted w c kind o s (shotFault s w c kind o p) := by
  have hlines (b : Bool) : OnlyReports [.mirror w 6] 0 (s.setShot w (faultCounted (s.shot w) c kind o))
      (if b then mirror (s.setShot w (faultCounted (s.shot w) c kind o)) w [6] else s.setShot w (faultCounted (s.shot w) c kind o)) := by
    split
    · exact mirror_reports _ w [6]
    · exact (OnlyReports.refl _).mono (by simp) (le_refl 0)
  rw [shotFault_eq]
  dsimp only
  split
  · next hzero => exact ⟨(hlines _).trans (hand_reports _ _ rfl), fun h => absurd hzero h⟩
  · exact ⟨(hlines _).mono (by simp) (by omega), fun _ => (hlines _).quiet rfl⟩

/-! ### Taking a request -/

theorem mayTake_started {s : State} (hphase : s.phase = .started) (hplace : s.port.pass.length < Config.passThroughPlaces) :
    mayTake s = true := by
  simp [mayTake, hphase, hplace]

/-- R50: taking the oldest waiting write. -/
theorem exec_takeWrite {s : State} {r : Request} {rest : List Request} {data : List Byte} {mask : BitVec 64}
    (h : TakesWrite s r rest data mask) :
    exec .takeWrite s =
      match writeTaken (freeWriteSlot s rest) (sourceClass r.tag) (lineAddr r) data mask with
      | some t => .next t
      | none => .fault .allocationBeyondReservation := by
  obtain ⟨hwaiting, hkind, hphase, hplace⟩ := h
  show execTakeWrite s = _
  unfold execTakeWrite
  simp only [hwaiting, hkind, mayTake_started hphase hplace, hphase, Bool.not_true, Bool.false_eq_true, if_false, reduceCtorEq] <;> rfl

theorem exec_takeWrite_some {s t : State} {r : Request} {rest : List Request} {data : List Byte} {mask : BitVec 64}
    (h : TakesWrite s r rest data mask)
    (ht : writeTaken (freeWriteSlot s rest) (sourceClass r.tag) (lineAddr r) data mask = some t) : exec .takeWrite s = .next t := by
  rw [exec_takeWrite h, ht]

/-- R50: the oldest waiting read leaves the waiting requests and keeps its slot. -/
def takenRead (s : State) (rest : List Request) : State := { s with link := { s.link with waiting := rest } }

/-- R50: taking the oldest waiting read. -/
theorem exec_takeRead {s : State} {r : Request} {rest : List Request} (h : TakesRead s r rest) :
    exec .takeRead s = .next (readTaken (takenRead s rest) (sourceClass r.tag) r.txn (lineAddr r)) := by
  obtain ⟨hwaiting, hkind, hphase, hplace⟩ := h
  show execTakeRead s = _
  unfold execTakeRead
  rw [hwaiting]
  simp only [hkind, mayTake_started hphase hplace, Bool.not_true, Bool.false_eq_true, if_false]
  rw [if_neg (by rw [hphase]; decide)]
  rfl

/-- R178: in a strap fault the requests are taken without effect. -/
theorem mayTake_strapFault {s : State} (hphase : s.phase = .strapFault) (hplace : s.port.pass.length < 32) : mayTake s = true := by
  simp [mayTake, hphase, show s.port.pass.length < Config.passThroughPlaces from hplace]

/-! ### Faults of writes -/

theorem writeTaken_unassigned {s : State} {a : Nat} (c : SourceClass) (data : List Byte) (mask : BitVec 64)
    (h : classify a = .unassigned) : writeTaken s c a data mask = some (plainFault s c .unassigned a) := by
  rw [writeTaken, h]

theorem writeTaken_plain_fault {s : State} {a : Nat} {k : FaultKind} (c : SourceClass) (data : List Byte) (mask : BitVec 64)
    (h : classify a = .plain) (hk : plainCheck s a = some k) : writeTaken s c a data mask = some (plainFault s c k a) := by
  unfold writeTaken
  rw [h]
  generalize plainCheck s a = x at hk
  subst hk
  rfl

theorem writeTaken_plain {s : State} {a : Nat} (c : SourceClass) (data : List Byte) (mask : BitVec 64)
    (h : classify a = .plain) (hk : plainCheck s a = none) : writeTaken s c a data mask = some (plainWrite s c a data mask) := by
  unfold writeTaken
  rw [h]
  generalize plainCheck s a = x at hk
  subst hk
  rfl

theorem writeTaken_shot {s : State} {a : Nat} {w : Fin 64} {o : Nat} (c : SourceClass) (data : List Byte) (mask : BitVec 64)
    (h : classify a = .shot w o) : writeTaken s c a data mask = shotWrite s c a w o data mask := by
  rw [writeTaken, h]

theorem writeTaken_preview {s : State} {a : Nat} {w : Fin 64} {o : Nat} (c : SourceClass) (data : List Byte) (mask : BitVec 64)
    (h : classify a = .preview w o) : writeTaken s c a data mask = some (previewWrite s c a w o) := by
  rw [writeTaken, h]

/-- R3: the key table, for a write that is no open attempt and that the CAPTURE class does not make within the length. -/
theorem shotWrite_access {s : State} {w : Fin 64} {c : SourceClass} (a o : Nat) (data : List Byte) (mask : BitVec 64)
    (h : (s.shot w).state = .sealed ∨ (s.shot w).state = .discarding ∨ ((s.shot w).state = .capturing ∧ c ≠ .capture)) :
    shotWrite s c a w o data mask = some (shotFault s w c .access o false) := by
  rcases h with h | h | ⟨h, hc⟩ <;> simp only [shotWrite, h]
  rw [if_pos hc]

theorem shotWrite_length {s : State} {w : Fin 64} {c : SourceClass} {o : Nat} (a : Nat) (data : List Byte) (mask : BitVec 64)
    (h : (s.shot w).state = .capturing) (hc : c = .capture) (ho : (s.shot w).rawLength ≤ o) :
    shotWrite s c a w o data mask = some (shotFault s w c .length o false) := by
  simp only [shotWrite, h]
  rw [if_neg (fun hne => hne hc), if_pos ho]

theorem shotWrite_notOpen {s : State} {w : Fin 64} {c : SourceClass} {o : Nat} {mask : BitVec 64} (a : Nat) (data : List Byte)
    (h : (s.shot w).state = .free) (hno : ¬(c = .capture ∧ mask = fullMask ∧ o = 0)) :
    shotWrite s c a w o data mask = some (plainFault s c .notOpen a) := by
  simp only [shotWrite, h]
  rw [if_neg]
  simpa [and_assoc] using hno

theorem shotWrite_open {s : State} {w : Fin 64} (a : Nat) (data : List Byte) (h : (s.shot w).state = .free) :
    shotWrite s .capture a w 0 data fullMask = openAttempt s w data fullMask := by
  simp only [shotWrite, h]
  rfl

/-! ### Reads -/

theorem readTaken_unassigned {s : State} {a : Nat} (c : SourceClass) (txn : BitVec 5) (h : classify a = .unassigned) :
    readTaken s c txn a = abortRead (plainFault s c .unassigned a) txn := by
  rw [readTaken, h]

theorem readTaken_plain_fault {s : State} {a : Nat} {k : FaultKind} (c : SourceClass) (txn : BitVec 5) (h : classify a = .plain)
    (hk : plainCheck s a = some k) : readTaken s c txn a = abortRead (plainFault s c k a) txn := by
  unfold readTaken
  rw [h]
  generalize plainCheck s a = x at hk
  subst hk
  rfl

theorem readTaken_plain {s : State} {a : Nat} (c : SourceClass) (txn : BitVec 5) (h : classify a = .plain)
    (hk : plainCheck s a = none) : readTaken s c txn a = enterPassRead s a txn none := by
  unfold readTaken
  rw [h]
  generalize plainCheck s a = x at hk
  subst hk
  rfl

theorem readTaken_shot {s : State} {a : Nat} {w : Fin 64} {o : Nat} (c : SourceClass) (txn : BitVec 5) (h : classify a = .shot w o) :
    readTaken s c txn a = shotRead s c txn a w o := by
  rw [readTaken, h]

theorem readTaken_preview {s : State} {a : Nat} {w : Fin 64} {o : Nat} (c : SourceClass) (txn : BitVec 5)
    (h : classify a = .preview w o) : readTaken s c txn a = previewRead s c txn a w o := by
  rw [readTaken, h]

theorem shotRead_access {s : State} {w : Fin 64} {c : SourceClass} (txn : BitVec 5) (a o : Nat) (hopen : (s.shot w).state ≠ .free)
    (hkey : readKey (s.shot w).state c = false) : shotRead s c txn a w o = abortRead (shotFault s w c .access o false) txn := by
  simp only [shotRead, if_neg hopen, hkey]
  rfl

theorem shotRead_length {s : State} {w : Fin 64} {c : SourceClass} {o : Nat} (txn : BitVec 5) (a : Nat)
    (hopen : (s.shot w).state ≠ .free) (hkey : readKey (s.shot w).state c = true) (ho : (s.shot w).rawLength ≤ o) :
    shotRead s c txn a w o = abortRead (shotFault s w c .length o false) txn := by
  simp only [shotRead, if_neg hopen, hkey, if_pos ho]
  rfl

/-- R4: a read that its key and its length permit. -/
theorem shotRead_served {s : State} {w : Fin 64} {c : SourceClass} {o : Nat} (txn : BitVec 5) (a : Nat)
    (hopen : (s.shot w).state ≠ .free) (hkey : readKey (s.shot w).state c = true) (ho : o < (s.shot w).rawLength) :
    shotRead s c txn a w o =
      (let t := serveRead s txn (s.rawEntry w (o / Config.granule)) o
      match (generalizing := false) c with
      | .card => acceptRead (cardRead t w o).1 (cardRead t w o).2 (s.rawEntry w (o / Config.granule)).isNone
      | .tether => tetherRead t w false
      | _ => t) := by
  simp only [shotRead, if_neg hopen]
  rw [hkey]
  simp only [if_neg (Nat.not_le.mpr ho)]
  cases c <;> rfl

theorem previewRead_access {s : State} {w : Fin 64} {c : SourceClass} (txn : BitVec 5) (a o : Nat) (hopen : (s.shot w).state ≠ .free)
    (h : c = .capture ∨ c = .other ∨ (s.shot w).state = .discarding) :
    previewRead s c txn a w o = abortRead (shotFault s w c .access o true) txn := by
  simp only [previewRead, if_neg hopen]
  rw [if_pos (by simpa [or_assoc] using h)]

theorem previewRead_notReady {s : State} {w : Fin 64} {c : SourceClass} (txn : BitVec 5) (a o : Nat)
    (hc : c ≠ .capture) (ho : c ≠ .other)
    (h : (s.shot w).state = .capturing ∨ ((s.shot w).state = .sealed ∧ (s.shot w).dev ≠ .done)) :
    previewRead s c txn a w o = abortRead (shotFault s w c .previewNotReady o true) txn := by
  have hopen : (s.shot w).state ≠ .free ∧ (s.shot w).state ≠ .discarding := by
    rcases h with h | ⟨h, -⟩ <;> rw [h] <;> decide
  have hready : ((s.shot w).state ≠ .sealed || (s.shot w).dev ≠ .done : Bool) = true := by
    rcases h with h | ⟨h, hd⟩
    · simp [h]
    · simp [hd]
  simp only [previewRead, if_neg hopen.1]
  rw [if_neg (by simp [hc, ho, hopen.2]), if_pos hready]

theorem previewRead_length {s : State} {w : Fin 64} {c : SourceClass} {o : Nat} (txn : BitVec 5) (a : Nat)
    (hc : c ≠ .capture) (hother : c ≠ .other) (hsealed : (s.shot w).state = .sealed) (hdone : (s.shot w).dev = .done)
    (ho : (s.shot w).previewLength ≤ o) :
    previewRead s c txn a w o = abortRead (shotFault s w c .length o true) txn := by
  simp only [previewRead, hsealed, hdone]
  simp [hc, hother, ho]

theorem previewRead_served {s : State} {w : Fin 64} {c : SourceClass} {o : Nat} (txn : BitVec 5) (a : Nat)
    (hc : c ≠ .capture) (hother : c ≠ .other) (hsealed : (s.shot w).state = .sealed) (hdone : (s.shot w).dev = .done)
    (ho : o < (s.shot w).previewLength) :
    previewRead s c txn a w o =
      (let t := serveRead s txn (s.previewEntry w (o / Config.granule)) o
      match (generalizing := false) c with
      | .tether => tetherRead t w true
      | _ => t) := by
  simp only [previewRead, hsealed, hdone]
  simp only [hc, hother, Nat.not_le.mpr ho, decide_false, Bool.or_false, Bool.false_eq_true, if_false, reduceCtorEq, ne_eq,
    not_true_eq_false]
    <;> cases c <;> rfl

/-- A response that becomes ready is no part of what is reported. -/
theorem OnlyReports.respond {ls : List OwnLine} {n : Nat} {s t : State} (h : OnlyReports ls n s t) (txn : BitVec 5)
    (data : List Byte) (ok : Bool) : OnlyReports ls n (respond s txn data ok) (respond t txn data ok) := by
  have e := congrArg (fun x => Machine.respond x txn data ok) h.blocks
  exact h.rebase e

theorem PlainFaulted.abortRead {c : SourceClass} {k : FaultKind} {s t : State} (h : PlainFaulted c k s t) (txn : BitVec 5) :
    PlainFaulted c k (abortRead s txn) (abortRead t txn) :=
  ⟨h.reports.respond txn _ _, h.again, h.first, h.record⟩

theorem ShotFaulted.abortRead {w : Fin 64} {c : SourceClass} {k : FaultKind} {o : Nat} {s t : State} (h : ShotFaulted w c k o s t)
    (txn : BitVec 5) : ShotFaulted w c k o (abortRead s txn) (abortRead t txn) :=
  ⟨h.reports.respond txn _ _, h.again⟩

/-- R3: the classes that the key table keeps out. -/
theorem readKey_denied {st : ShotState} {c : SourceClass}
    (h : st = .discarding ∨ (st = .capturing ∧ c ≠ .capture ∧ c ≠ .processor) ∨ (st = .sealed ∧ (c = .capture ∨ c = .other))) :
    readKey st c = false := by
  rcases h with rfl | ⟨rfl, h1, h2⟩ | ⟨rfl, rfl | rfl⟩
  · rfl
  · cases c with
    | capture => exact absurd rfl h1
    | processor => exact absurd rfl h2
    | card | tether | display | other => rfl
  · rfl
  · rfl

/-- R3: the classes that the key table lets in. -/
theorem readKey_granted {st : ShotState} {c : SourceClass}
    (h : (st = .capturing ∧ (c = .capture ∨ c = .processor)) ∨ (st = .sealed ∧ c ≠ .capture ∧ c ≠ .other)) : readKey st c = true := by
  rcases h with ⟨rfl, rfl | rfl⟩ | ⟨rfl, h1, h2⟩
  · rfl
  · rfl
  · cases c with
    | capture => exact absurd rfl h1
    | other => exact absurd rfl h2
    | processor | card | tether | display => rfl

theorem viewWrite_none {s : State} {a : Nat} (full : Bool) (data : List Byte)
    (h : ∀ f, s.focus.setup = some f → viewLineOf f a = none) : viewWrite s a full data = s := by
  unfold viewWrite
  split
  · rfl
  · next f hf => rw [h f hf]

theorem watchedWrite_other {s : State} {a : Nat} (data : List Byte) (mask : BitVec 64)
    (hpost : a ≠ controlBase s.caSel + Config.postIndexAt) (hconsumed : a ≠ controlBase s.caSel + Config.consumedIndexAt) :
    watchedWrite s a data mask = s := by
  simp only [watchedWrite, if_neg hpost, if_neg hconsumed, ite_self]

/-- R52, R53: a plain write that nothing follows up is only stored. -/
theorem plainWrite_stored {s : State} {c : SourceClass} {a : Nat} (data : List Byte) (mask : BitVec 64)
    (hview : c = .capture → ∀ f, s.focus.setup = some f → viewLineOf f a = none)
    (hword : c = .processor → a ≠ controlBase s.caSel + Config.postIndexAt ∧ a ≠ controlBase s.caSel + Config.consumedIndexAt) :
    plainWrite s c a data mask = enterPassWrite s a data mask := by
  cases c with
  | capture => exact viewWrite_none (s := enterPassWrite s a data mask) _ data (hview rfl)
  | processor => exact watchedWrite_other (s := enterPassWrite s a data mask) data mask (hword rfl).1 (hword rfl).2
  | _ => rfl

/-- R57: which own head comes first. -/
theorem earlier_write {w : WriteEntry} {r : Option ReadEntry} (h : ∀ y, r = some y → w.entry < y.entry) :
    earlier (some w) r = some .write := by
  cases r with
  | none => rfl
  | some y => simp [earlier, h y rfl]

theorem earlier_read {w : Option WriteEntry} {r : ReadEntry} (h : ∀ x, w = some x → r.entry ≤ x.entry) :
    earlier w (some r) = some .read := by
  cases w with
  | none => rfl
  | some x => simp [earlier, Nat.not_lt.mpr (h x rfl)]

/-- R57: a head that has waited through the limit. -/
theorem head_waited {α : Type} {f : α → Nat} {o : Option α} {x : α} (h : o = some x) (hx : 8 ≤ f x) :
    (o.filter fun x => Config.waitLimit ≤ f x) = some x := by
  rw [h]
  exact if_pos (decide_eq_true (show Config.waitLimit ≤ f x from hx))

theorem head_waited_iff {α : Type} {f : α → Nat} {o : Option α} {x : α} :
    (o.filter fun x => Config.waitLimit ≤ f x) = some x ↔ o = some x ∧ 8 ≤ f x := by
  rw [Option.filter_eq_some_iff, decide_eq_true_iff]
  exact Iff.rfl

/-- R57: a head that has not waited that long. -/
theorem head_not_waited {α : Type} {f : α → Nat} {o : Option α} (h : ∀ x, o = some x → f x < 8) :
    (o.filter fun x => Config.waitLimit ≤ f x) = none := by
  rw [Option.filter_eq_none_iff]
  intro x hx
  rw [decide_eq_true_iff]
  exact Nat.not_le.mpr (h x hx)

end Sys2Proof.Machine

open Sys2Proof Sys2Proof.Machine

/-- Settles O1. -/
theorem stepRunsFrontCommand : Obligations.StepRunsFrontCommand := by
  refine ⟨fun c rest s => rfl, fun s h => ?_⟩
  unfold step
  split
  · rfl
  · next hpending => rw [h] at hpending; cases hpending

/-- Settles O2. -/
theorem powerOnResetValues : Obligations.PowerOnResetValues := by
  intro caSel memSize s
  refine ⟨State.powerOn caSel memSize s.lensPin s.pending, rfl, ?_⟩
  have hmaps (w : Fin 64) (g : Nat) : (State.powerOn caSel memSize s.lensPin s.pending).rawEntry w g = none ∧
      (State.powerOn caSel memSize s.lensPin s.pending).previewEntry w g = none := by
    simp only [State.rawEntry, State.previewEntry, powerOn_mapsOf, emptyMaps]
    constructor <;> rw [Vector.getElem?_replicate] <;> split <;> rfl
  have hget {α : Type} {n : Nat} (x : α) (i : Fin n) : (Vector.replicate n x).get i = x := by
    rw [Vector.get_eq_getElem, Vector.getElem_replicate]
  refine ⟨rfl, rfl, rfl, rfl, rfl, fun w => powerOn_shot _ _ _ _ w, hmaps, rfl, rfl, rfl, rfl, rfl, hget none, rfl, rfl, rfl, rfl, rfl,
    rfl, rfl, rfl, rfl, rfl, rfl, rfl, hget none, rfl, rfl, rfl, rfl, hget noDataZone, rfl, rfl, rfl, rfl, rfl, rfl, rfl, rfl, rfl,
    rfl, rfl, rfl, rfl, rfl, rfl, rfl, rfl, rfl, rfl, rfl, rfl, rfl, rfl, rfl, hget _, hget none, rfl, rfl, fun n => ?_, rfl, rfl, rfl,
    rfl, rfl, rfl, rfl, rfl, fun c => by cases c <;> rfl, rfl, rfl, rfl, rfl, rfl⟩
  exact congrArg SelectionRule.enabled (hget disabledRule n)

/-- Settles O11. -/
theorem linkResetFreesSlots : Obligations.LinkResetFreesSlots := by
  intro s
  exact ⟨_, rfl, execLinkReset_slotsUsed rfl, rfl, rfl, rfl, rfl, rfl, rfl, rfl, rfl⟩

/-- Settles O12. -/
theorem requestArrivesInSlot : Obligations.RequestArrivesInSlot := by
  intro r s
  refine ⟨fun hwf hslots => ?_, fun hwf hslots => ?_, fun hwf => ?_⟩ <;> simp only [exec, execRequestArrives, hwf]
  · exact if_neg (Nat.not_le.mpr hslots)
  · exact if_pos hslots
  · rfl

/-- Settles O13. -/
theorem plainWriteStored : Obligations.PlainWriteStored := by
  intro s r rest data mask hm htakes hplain hcheck hview hword
  have hstored := plainWrite_stored (s := freeWriteSlot s rest) data mask hview hword
  refine ⟨_, exec_takeWrite_some htakes ((writeTaken_plain (s := freeWriteSlot s rest) _ data mask hplain hcheck).trans
    (congrArg some hstored)), rfl, rfl, rfl, ?_⟩
  exact Memory.read_writeLine s.mem (lineAddr r) data mask hm

/-- Settles O14. -/
theorem abortedPlainWriteDropped : Obligations.AbortedPlainWriteDropped := by
  intro s r rest data mask
  refine ⟨fun k htakes hkind => ?_, fun hphase hwaiting hkind hplace => ?_⟩
  · refine ⟨_, exec_takeWrite_some htakes (?_ : _ = some (plainFault (freeWriteSlot s rest) (sourceClass r.tag) k (lineAddr r))),
      plainFault_faulted _ _ _ _⟩
    obtain ⟨hspace, rfl⟩ | ⟨hspace, hcheck⟩ := hkind
    · exact writeTaken_unassigned _ data mask hspace
    · exact writeTaken_plain_fault _ data mask hspace hcheck
  · simp only [exec, execTakeWrite, hwaiting, hkind, mayTake_strapFault hphase hplace, Bool.not_true, Bool.false_eq_true, if_false,
      if_pos hphase]
    rfl

/-- Settles O15. -/
theorem keylessShotWriteDropped : Obligations.KeylessShotWriteDropped := by
  intro s r rest data mask w o htakes
  have hshot (k : FaultKind) (p : Bool) := shotFault_faulted (freeWriteSlot s rest) w (sourceClass r.tag) k o p
  have hplain := plainFault_faulted (freeWriteSlot s rest) (sourceClass r.tag) .notOpen (lineAddr r)
  refine ⟨fun hspace => ⟨fun hstate => ?_, fun hstate hclass hlen => ?_, fun hstate hno => ?_⟩, fun hspace => ⟨fun hstate => ?_, fun hstate => ?_⟩⟩
  · exact ⟨_, exec_takeWrite_some htakes ((writeTaken_shot _ data mask hspace).trans
      (shotWrite_access (s := freeWriteSlot s rest) _ o data mask hstate)), hshot _ _⟩
  · exact ⟨_, exec_takeWrite_some htakes ((writeTaken_shot _ data mask hspace).trans
      (shotWrite_length (s := freeWriteSlot s rest) _ data mask hstate hclass hlen)), hshot _ _⟩
  · exact ⟨_, exec_takeWrite_some htakes ((writeTaken_shot _ data mask hspace).trans
      (shotWrite_notOpen (s := freeWriteSlot s rest) _ data hstate hno)), hplain⟩
  · exact ⟨_, exec_takeWrite_some htakes ((writeTaken_preview _ data mask hspace).trans
      (congrArg some (if_neg (show ¬((freeWriteSlot s rest).shot w).state = .free from hstate)))), hshot _ _⟩
  · exact ⟨_, exec_takeWrite_some htakes ((writeTaken_preview _ data mask hspace).trans
      (congrArg some (if_pos (show ((freeWriteSlot s rest).shot w).state = .free from hstate)))), hplain⟩

/-- Settles O16. -/
theorem refusedOpenChangesNothing : Obligations.RefusedOpenChangesNothing := by
  intro s r rest data w e htakes hspace hclass hstate hjudge
  have hjudge' : judgeOpen (freeWriteSlot s rest) = .error e := hjudge
  refine ⟨refuseOpen (freeWriteSlot s rest) w e, exec_takeWrite_some htakes ?_, hand_reports _ _ rfl⟩
  rw [writeTaken_shot _ data fullMask hspace, hclass, shotWrite_open (s := freeWriteSlot s rest) _ data hstate, openAttempt, hjudge']

/-- Settles O22. -/
theorem plainReadEntersMemoryPath : Obligations.PlainReadEntersMemoryPath := by
  intro s r rest htakes hspace hcheck
  rw [exec_takeRead htakes, readTaken_plain (s := takenRead s rest) _ _ hspace hcheck]
  rfl

/-- Settles O23. -/
theorem abortedPlainReadAnswered : Obligations.AbortedPlainReadAnswered := by
  intro s u r rest c hc hu
  have hu' : u = abortRead (takenRead s rest) r.txn := hu
  subst hc hu'
  have hplain (k : FaultKind) :=
    (plainFault_faulted (takenRead s rest) (sourceClass r.tag) k (lineAddr r)).abortRead r.txn
  have hshot (w : Fin 64) (k : FaultKind) (o : Nat) (p : Bool) :=
    (shotFault_faulted (takenRead s rest) w (sourceClass r.tag) k o p).abortRead r.txn
  refine ⟨fun hphase hwaiting hkind hplace => ?_, fun k htakes hkind => ?_, fun w o htakes hspace hfree => ?_,
    fun w o htakes hspace => ⟨fun hstate => ?_, fun hstate hlen => ?_⟩, fun w o htakes hspace hopen => ⟨fun hstate => ?_,
    fun hcapture hother => ⟨fun hstate => ?_, fun hsealed hdone hlen => ?_⟩⟩⟩
  · simp only [exec, execTakeRead, hwaiting, hkind, mayTake_strapFault hphase hplace, Bool.not_true, Bool.false_eq_true, if_false,
      if_pos hphase]
    rfl
  · refine ⟨_, (exec_takeRead htakes).trans (congrArg _ ?_), hplain k⟩
    obtain ⟨hspace, rfl⟩ | ⟨hspace, hcheck⟩ := hkind
    · exact readTaken_unassigned _ _ hspace
    · exact readTaken_plain_fault _ _ hspace hcheck
  · refine ⟨_, (exec_takeRead htakes).trans (congrArg _ ?_), hplain .notOpen⟩
    obtain hspace | hspace := hspace
    · exact (readTaken_shot _ _ hspace).trans (if_pos hfree)
    · exact (readTaken_preview _ _ hspace).trans (if_pos hfree)
  · refine ⟨_, (exec_takeRead htakes).trans (congrArg _ ((readTaken_shot _ _ hspace).trans
      (shotRead_access (s := takenRead s rest) _ _ _ ?_ (readKey_denied hstate)))), hshot w _ o _⟩
    show (s.shot w).state ≠ .free
    rcases hstate with h | ⟨h, -⟩ | ⟨h, -⟩ <;> rw [h] <;> decide
  · refine ⟨_, (exec_takeRead htakes).trans (congrArg _ ((readTaken_shot _ _ hspace).trans
      (shotRead_length (s := takenRead s rest) _ _ ?_ (readKey_granted hstate) hlen))), hshot w _ o _⟩
    show (s.shot w).state ≠ .free
    rcases hstate with ⟨h, -⟩ | ⟨h, -⟩ <;> rw [h] <;> decide
  · exact ⟨_, (exec_takeRead htakes).trans (congrArg _ ((readTaken_preview _ _ hspace).trans
      (previewRead_access (s := takenRead s rest) _ _ _ hopen hstate))), hshot w _ o _⟩
  · exact ⟨_, (exec_takeRead htakes).trans (congrArg _ ((readTaken_preview _ _ hspace).trans
      (previewRead_notReady (s := takenRead s rest) _ _ _ hcapture hother hstate))), hshot w _ o _⟩
  · exact ⟨_, (exec_takeRead htakes).trans (congrArg _ ((readTaken_preview _ _ hspace).trans
      (previewRead_length (s := takenRead s rest) _ _ hcapture hother hsealed hdone hlen))), hshot w _ o _⟩

/-- Settles O27. -/
theorem arbiterGrantsByRule : Obligations.ArbiterGrantsByRule := by
  intro s
  have hchoice : exec .dramGrant s = execDramGrant s := rfl
  refine ⟨fun x hx hwait hearlier => ?_, fun y hy hwait hearlier => ?_, fun hw hr => ⟨fun e more hpass => ?_, fun hpass =>
    ⟨fun x hx hearlier => ?_, fun y hy hearlier => ?_⟩⟩, fun e more hreads hwanted => ?_⟩
  · have hgrant : grantChoice s.port = some .write := by
      rw [grantChoice, head_waited hx hwait, earlier_write fun y hy => ?_]
      obtain ⟨hy, hwait⟩ := head_waited_iff.mp hy
      exact hearlier y hy hwait
    simp only [hchoice, execDramGrant, hgrant]
    rfl
  · have hgrant : grantChoice s.port = some .read := by
      rw [grantChoice, head_waited hy hwait, earlier_read fun x hx => ?_]
      obtain ⟨hx, hwait⟩ := head_waited_iff.mp hx
      exact hearlier x hx hwait
    simp only [hchoice, execDramGrant, hgrant]
  · have hgrant : grantChoice s.port = some .pass := by
      rw [grantChoice, head_not_waited hw, head_not_waited hr, hpass]
      rfl
    refine ⟨grantPass s, by simp only [hchoice, execDramGrant, hgrant], ?_⟩
    rw [grantPass, hpass]
    exact ⟨rfl, rfl, rfl, rfl, rfl, rfl, rfl, rfl, fun d m hk => by simp [hk], fun q hk => by simp [hk]⟩
  · have hgrant : grantChoice s.port = some .write := by
      rw [grantChoice, head_not_waited hw, head_not_waited hr, hpass, hx]
      exact earlier_write hearlier
    simp only [hchoice, execDramGrant, hgrant]
    rfl
  · have hgrant : grantChoice s.port = some .read := by
      rw [grantChoice, head_not_waited hw, head_not_waited hr, hpass, hy]
      exact earlier_read hearlier
    simp only [hchoice, execDramGrant, hgrant]
  · simp only [grantRead, hreads, if_neg hwanted]

end

section
/-! PROOFS. What the shared operations come to, apart from what they report: the state after one is a plain update of the state before it,
with lines and notices on their way. Settles O24 and O26. -/

namespace Sys2Proof.Machine

set_option Elab.async false

/-! ### Apart from reports -/

/-- t is s, but for lines and notices on their way. -/
def Reported (s t : State) : Prop := ∃ ls n, OnlyReports ls n s t

theorem OnlyReports.reported {ls : List OwnLine} {n : Nat} {s t : State} (h : OnlyReports ls n s t) : Reported s t := ⟨ls, n, h⟩

theorem Reported.refl (s : State) : Reported s s := (OnlyReports.refl s).reported

theorem Reported.trans {s t u : State} (h : Reported s t) (k : Reported t u) : Reported s u := by
  obtain ⟨ls, n, h⟩ := h
  obtain ⟨ls', n', k⟩ := k
  exact (h.trans k).reported

/-- A block that reports do not touch. -/
theorem Reported.field {α : Type} {s t : State} (h : Reported s t) (f : State → α)
    (hf : ∀ (u : State) (m : Memory) (p : MemoryPort) (n : NoticeUnit),
      f { u with mem := m, port := p, notice := n } = f u := by intros; rfl) : f t = f s := by
  obtain ⟨ls, n, h⟩ := h
  rw [← hf t s.mem s.port s.notice, h.blocks]

/-- A queue of the Memory Port that reports do not touch. -/
theorem Reported.portField {α : Type} {s t : State} (h : Reported s t) (f : MemoryPort → α)
    (hf : ∀ (q : MemoryPort) (ws : List WriteEntry) (w : List OwnWork) (n : Nat),
      f { q with writes := ws, work := w, nextEntry := n } = f q := by intros; rfl) : f t.port = f s.port := by
  obtain ⟨ls, n, h⟩ := h
  rw [← hf t.port s.port.writes s.port.work s.port.nextEntry, h.port]

/-- An update of blocks that are not reported through stays on top of what has been reported. -/
theorem Reported.map {s t : State} (h : Reported s t) (g : State → State)
    (comm : ∀ (u : State) (m : Memory) (p : MemoryPort) (n : NoticeUnit),
      g { u with mem := m, port := p, notice := n } = { g u with mem := m, port := p, notice := n } := by intros; rfl)
    (caSel : ∀ u : State, (g u).caSel = u.caSel := by intros; rfl) (mem : ∀ u : State, (g u).mem = u.mem := by intros; rfl)
    (port : ∀ u : State, (g u).port = u.port := by intros; rfl) (notice : ∀ u : State, (g u).notice = u.notice := by intros; rfl) :
    Reported (g s) (g t) := by
  obtain ⟨ls, n, h⟩ := h
  refine (h.rebase ?_ (caSel s) (mem s) (port s) (notice s) (mem t) (port t) (notice t)).reported
  have e := congrArg g h.blocks
  rw [comm] at e
  rw [mem, port, notice]
  exact e

theorem Reported.ite {s t u : State} {c : Prop} [Decidable c] (ht : c → Reported s t) (hu : ¬c → Reported s u) :
    Reported s (if c then t else u) := by
  split
  · next h => exact ht h
  · next h => exact hu h

theorem publish_reported (s : State) (n : Fin 9) : Reported s (publish s n) := (publish_reports s n).reported
theorem mirror_reported (s : State) (w : Fin 64) (ls : List (Fin 64)) : Reported s (mirror s w ls) := (mirror_reports s w ls).reported
theorem mirrorChanged_reported (s : State) (w : Fin 64) (old : Shot) : Reported s (mirrorChanged s w old) :=
  (mirrorChanged_reports s w old).reported
theorem shotNotice_reported (s t : State) (w : Fin 64) (kind : NoticeKind) (subject : Nat) (details : List Byte) :
    Reported s (hand s (shotNotice t w kind subject details)) := (hand_reports _ _ rfl).reported
theorem plainNotice_reported (s : State) (kind : NoticeKind) (subject : Nat) (details : List Byte) :
    Reported s (hand s (plainNotice kind subject details)) := (hand_reports _ _ rfl).reported

@[simp] theorem State.setShot_shot (s : State) (w : Fin 64) : s.setShot w (s.shot w) = s := by
  have h : s.shots.set w.val (s.shot w) = s.shots := Vector.set_getElem_self w.isLt
  rw [State.setShot, h]

/-! ### The pool's counts and the cursor -/

/-- The state with armed flag, cursor and admissible flag evaluated anew, to whatever they come to. -/
def recounted (s : State) (armed : Bool) (cursor : Option (Fin 64)) (admissible : Bool) : State :=
  { s with pool := { s.pool with armed := armed }, table := { s.table with cursor := cursor, admissible := admissible } }

theorem evalArmed_reported (s : State) : ∃ a, Reported { s with pool := { s.pool with armed := a } } (evalArmed s) := by
  unfold evalArmed
  split
  · exact ⟨false, plainNotice_reported _ _ _ _⟩
  · split
    · exact ⟨true, .refl _⟩
    · exact ⟨s.pool.armed, .refl _⟩

theorem publishPool_reported (r s : State) : Reported s (publishPool r s) := .ite (fun _ => .refl s) fun _ => publish_reported s 2

theorem poolCounted_reported (r s : State) : ∃ a, Reported { s with pool := { s.pool with armed := a } } (poolCounted r s) := by
  unfold poolCounted
  split
  · exact ⟨s.pool.armed, publishPool_reported r s⟩
  · obtain ⟨a, h⟩ := evalArmed_reported (publishPool r s)
    exact ⟨a, ((publishPool_reported r s).map fun u => { u with pool := { u.pool with armed := a } }).trans h⟩

/-- The state with another cursor. -/
def cursorAt (s : State) (cursor : Option (Fin 64)) (admissible : Bool) : State :=
  { s with table := { s.table with cursor := cursor, admissible := admissible } }

theorem refreshCursor_reported (s : State) : ∃ c f, Reported (cursorAt s c f) (refreshCursor s) :=
  ⟨_, _, (refreshCursor_reports s).reported⟩

theorem poolChanged_reported (r s : State) : ∃ a c f, Reported (recounted s a c f) (poolChanged r s) := by
  obtain ⟨a, h⟩ := poolCounted_reported r s
  unfold poolChanged
  split
  · exact ⟨a, s.table.cursor, s.table.admissible, h⟩
  · obtain ⟨c, f, hcursor⟩ := refreshCursor_reported (poolCounted r s)
    exact ⟨a, c, f, (h.map fun u => cursorAt u c f).trans hcursor⟩

/-- R18, R44: what releasing a shot comes to. -/
theorem releaseShot_reported (s : State) (w : Fin 64) (cause : ReleaseCause) :
    ∃ a c f, Reported (recounted (granulesFreed s w) a c f) (releaseShot s w cause) := by
  obtain ⟨a, c, f, h⟩ := poolChanged_reported s (mirror (granulesFreed s w) w wholeRecord)
  obtain ⟨c', f', hcursor⟩ := refreshCursor_reported (poolChanged s (mirror (granulesFreed s w) w wholeRecord))
  have hfreed := ((mirror_reported (granulesFreed s w) w wholeRecord).map fun u => recounted u a c f).trans h
  rw [releaseShot_eq]
  exact ⟨a, c', f', ((hfreed.map fun u => cursorAt u c' f').trans hcursor).trans (shotNotice_reported _ _ _ _ _ _)⟩

theorem releaseShot_freed (s : State) (w : Fin 64) (cause : ReleaseCause) : Freed s (releaseShot s w cause) w := by
  obtain ⟨a, c, f, h⟩ := releaseShot_reported s w cause
  have hshot (v : Fin 64) : (releaseShot s w cause).shot v = (granulesFreed s w).shot v := h.field fun u => u.shot v
  have hmaps (v : Fin 64) : (releaseShot s w cause).mapsOf v = (granulesFreed s w).mapsOf v := h.field fun u => u.mapsOf v
  refine ⟨(hshot w).trans (granulesFreed_shot_same s w), ?_, h.field fun u => u.pool.free, fun v hv => ⟨?_, ?_⟩⟩
  · rw [hmaps]
    exact mapsOf_set_same s w emptyMaps
  · rw [hshot, granulesFreed_shot_other s hv]
  · rw [hmaps, granulesFreed_mapsOf_other s hv]

/-- A block that a release does not touch. -/
theorem releaseShot_field {α : Type} (s : State) (w : Fin 64) (cause : ReleaseCause) (g : State → α)
    (hg : ∀ (u : State) (m : Memory) (p : MemoryPort) (n : NoticeUnit) (q : Pool) (t : ShotTable) (xs : Vector Shot 64)
      (ms : Vector WindowMaps 64),
      g { u with mem := m, port := p, notice := n, pool := q, table := t, shots := xs, maps := ms } = g u := by intros; rfl) :
    g (releaseShot s w cause) = g s := by
  obtain ⟨a, c, f, h⟩ := releaseShot_reported s w cause
  have hfield (u : State) (m : Memory) (p : MemoryPort) (n : NoticeUnit) : g { u with mem := m, port := p, notice := n } = g u :=
    hg u m p n u.pool u.table u.shots u.maps
  rw [h.field g hfield]
  exact hg s s.mem s.port s.notice _ _ _ _

/-- R43: the release check of a shot that something keeps. -/
theorem releaseCheck_kept {s : State} {w : Fin 64} (h : (s.shot w).state = .sealed → (s.shot w).releasable = false) :
    releaseCheck s w = s := by
  unfold releaseCheck
  rw [if_neg]
  simpa using h

theorem releaseCheck_released {s : State} {w : Fin 64} (hs : (s.shot w).state = .sealed) (h : (s.shot w).releasable = true) :
    releaseCheck s w = releaseShot s w .released := by
  unfold releaseCheck
  rw [if_pos (by simp [hs, h])]

/-! ### The tether queue -/

/-- R156: the head is the one that the queue gives. -/
def headSet (s : State) : State := { s with tether := { s.tether with head := tetherHeadOf s } }

theorem refreshHead_reports (s : State) : OnlyReports [.cursor 4, .cursor 3] 1 (headSet s) (refreshHead s) := by
  unfold refreshHead
  dsimp only
  split
  · next h =>
    rw [headSet, ← h]
    exact (OnlyReports.refl s).mono (by simp) (by omega)
  · split
    · exact (publish_reports (headSet s) 4).trans (hand_reports _ _ rfl)
    · exact (publish_reports (headSet s) 4).mono (by simp) (by omega)

theorem refreshHead_reported (s : State) : Reported (headSet s) (refreshHead s) := (refreshHead_reports s).reported

/-- R153, R162: a shot's record as it joins the tether queue. -/
def joinedShot (x : Shot) (send : SendWhat) : Shot :=
  { x with tether := .queued, sendWhat := some send, tetherRaw := 0, tetherPreview := 0 }

/-- R153, R162: the entry with which a shot joins the tether queue. -/
def joinedEntry (w : Fin 64) (x : Shot) (send : SendWhat) (forced : Bool) : TetherEntry :=
  { window := w, seq := x.seq, send := send, urgent := forced || x.urgent, ready := readyFlag x send, forced := forced }

/-- R153, R162: what joining the tether queue comes to, but for the head. -/
def queueJoined (s : State) (w : Fin 64) (send : SendWhat) (forced : Bool) : State :=
  (s.setShot w (joinedShot (s.shot w) send)).setTetherQueue (insertEntry s.tether.queue (joinedEntry w (s.shot w) send forced))

theorem joinQueue_reported (s : State) (w : Fin 64) (send : SendWhat) (forced : Bool) :
    Reported (headSet (queueJoined s w send forced)) (joinQueue s w send forced) := by
  have hmirrored := mirror_reported (s.setShot w (joinedShot (s.shot w) send)) w [5]
  have hqueued := hmirrored.map fun u => u.setTetherQueue (insertEntry s.tether.queue (joinedEntry w (s.shot w) send forced))
  have hentry : joinQueue s w send forced = refreshHead ((mirror (s.setShot w (joinedShot (s.shot w) send)) w [5]).setTetherQueue
      (insertEntry s.tether.queue (joinedEntry w (s.shot w) send forced))) := by
    unfold joinQueue
    dsimp only [State.modShot]
    rw [State.shot_setShot_same, mirror_tether]
    rfl
  rw [hentry]
  refine Reported.trans ?_ (refreshHead_reported _)
  have hhead := hqueued.map headSet
  exact hhead

/-- R155: what recomputing a ready flag comes to. -/
def readyMarked (s : State) (w : Fin 64) : State :=
  headSet (s.setTetherQueue (s.tether.queue.map fun e =>
    if e.window = w then { e with ready := readyFlag (s.shot w) e.send } else e))

theorem refreshReady_reported (s : State) (w : Fin 64) : Reported (readyMarked s w) (refreshReady s w) := refreshHead_reported _

/-! ### Served reads -/

/-- R4, R5: where a permitted read goes. -/
theorem serveRead_ports (s : State) (txn : BitVec 5) (entry : Option Nat) (o : Nat) :
    { serveRead s txn entry o with port := s.port, link := s.link } = s ∧
      (∀ n, entry = some n → (serveRead s txn entry o).link = s.link ∧ (serveRead s txn entry o).port.pass = s.port.pass ++ [{
        addr := n * Config.granule + o % Config.granule
        kind := .read { txn := txn, data := s.mem.readLine (n * Config.granule + o % Config.granule), respond := true, accepted := none }
        entry := s.port.nextEntry }]) ∧
      (entry = none → (serveRead s txn entry o).port = s.port ∧
        (serveRead s txn entry o).link = { s.link with ready := s.link.ready ++ [{ txn := txn, data := zeroLine, ok := true }] }) := by
  cases entry with
  | none => exact ⟨rfl, nofun, fun _ => ⟨rfl, rfl⟩⟩
  | some n => exact ⟨rfl, fun m hm => by cases hm; exact ⟨rfl, rfl⟩, nofun⟩

/-- A block that serving a read does not touch. -/
theorem serveRead_field {α : Type} (s : State) (txn : BitVec 5) (entry : Option Nat) (o : Nat) (g : State → α)
    (hg : ∀ (u : State) (p : MemoryPort) (l : LinkPort), g { u with port := p, link := l } = g u := by intros; rfl) :
    g (serveRead s txn entry o) = g s := by
  rw [← hg (serveRead s txn entry o) s.port s.link, (serveRead_ports s txn entry o).1]

/-! ### Tether reads -/

/-- R157, R158: a shot's record after a served TETHER read. -/
def tetherCounted (s : State) (w : Fin 64) (preview : Bool) : Shot :=
  { s.shot w with
    tetherRaw := if preview then (s.shot w).tetherRaw else min ((s.shot w).tetherRaw + 64) (2 ^ 32 - 1)
    tetherPreview := if preview then min ((s.shot w).tetherPreview + 64) (2 ^ 32 - 1) else (s.shot w).tetherPreview
    tether := if (s.shot w).tether = .queued ∧ sendingCount s < 4 then .sending else (s.shot w).tether }

/-- A shot that is SENDING is kept. -/
theorem releasable_sending {x : Shot} (h : x.tether = .sending) : x.releasable = false := by
  simp [Shot.releasable, h]

theorem tetherRead_reported (s : State) (w : Fin 64) (preview : Bool) :
    ∃ h, Reported { (s.setShot w (tetherCounted s w preview)) with tether := { s.tether with head := h } } (tetherRead s w preview) := by
  have hrecord : countTetherRead (if (decide ((s.shot w).tether = .queued) && decide (sendingCount s < Config.sendingLimit)) = true then
      { s.shot w with tether := .sending } else s.shot w) preview = tetherCounted s w preview := by
    simp only [tetherCounted, Bool.and_eq_true, decide_eq_true_eq, show Config.sendingLimit = 4 from rfl]
    cases preview <;> split <;> rfl
  have hmirrored (b : Bool) : Reported (s.setShot w (tetherCounted s w preview))
      (if b then mirror (s.setShot w (tetherCounted s w preview)) w [5] else s.setShot w (tetherCounted s w preview)) :=
    .ite (fun _ => mirror_reported _ w [5]) fun _ => .refl _
  simp only [tetherRead]
  rw [hrecord]
  split
  · next hstarts =>
    simp only [Bool.and_eq_true, decide_eq_true_eq] at hstarts
    have hheaded := refreshHead_reported (if (decide ((s.shot w).tether = .queued) && decide (sendingCount s < Config.sendingLimit) ||
        tetherCountWritten (s.shot w) (tetherCounted s w preview) preview) = true then
      mirror (s.setShot w (tetherCounted s w preview)) w [5] else s.setShot w (tetherCounted s w preview))
    have hshot := ((hmirrored _).map headSet).trans hheaded
    rw [releaseCheck_kept]
    · exact ⟨_, hshot⟩
    · intro _
      rw [hshot.field fun u => u.shot w]
      show ((s.setShot w (tetherCounted s w preview)).shot w).releasable = false
      rw [State.shot_setShot_same]
      exact releasable_sending (if_pos ⟨hstarts.1, hstarts.2⟩)
  · exact ⟨s.tether.head, hmirrored _⟩

end Sys2Proof.Machine

open Sys2Proof Sys2Proof.Machine

/-- Settles O24. -/
theorem sealedShotReadServed : Obligations.SealedShotReadServed := by
  intro s r rest w o entry htakes hcase
  have hserved : readTaken (takenRead s rest) (sourceClass r.tag) r.txn (lineAddr r) = serveRead (takenRead s rest) r.txn entry o := by
    obtain ⟨hspace, hlen, rfl, hkey⟩ | ⟨hspace, hlen, rfl, hsealed, hdone, hclass⟩ := hcase
    · have hgranted : readKey (s.shot w).state (sourceClass r.tag) = true ∧ (s.shot w).state ≠ .free := by
        rcases hkey with ⟨h, hc | hc⟩ | ⟨h, hc | hc⟩ <;> rw [h, hc] <;> decide
      rw [readTaken_shot _ _ hspace, shotRead_served (s := takenRead s rest) _ _ hgranted.2 hgranted.1 hlen]
      rcases hkey with ⟨-, hc | hc⟩ | ⟨-, hc | hc⟩ <;> rw [hc] <;> rfl
    · have hne : sourceClass r.tag ≠ .capture ∧ sourceClass r.tag ≠ .other := by
        rcases hclass with hc | hc | hc <;> rw [hc] <;> decide
      rw [readTaken_preview _ _ hspace, previewRead_served (s := takenRead s rest) _ _ hne.1 hne.2 hsealed hdone hlen]
      rcases hclass with hc | hc | hc <;> rw [hc] <;> rfl
  rw [exec_takeRead htakes, hserved]
  cases entry <;> rfl

/-- Settles O26. -/
theorem tetherReadCounted : Obligations.TetherReadCounted := by
  intro s r rest w o entry preview htakes hclass hsealed hcase
  have htaken : readTaken (takenRead s rest) (sourceClass r.tag) r.txn (lineAddr r) =
      tetherRead (serveRead (takenRead s rest) r.txn entry o) w preview := by
    rw [hclass]
    obtain ⟨rfl, hspace, hlen, rfl⟩ | ⟨rfl, hspace, hdone, hlen, rfl⟩ := hcase
    · rw [readTaken_shot _ _ hspace, shotRead_served (s := takenRead s rest) (c := .tether) _ _ ?_ ?_ hlen]
      · rfl
      · exact fun h => nomatch hsealed.symm.trans h
      · show readKey (s.shot w).state .tether = true
        rw [hsealed]
        rfl
    · rw [readTaken_preview _ _ hspace, previewRead_served (s := takenRead s rest) (c := .tether) _ _ (by decide) (by decide) hsealed
        hdone hlen]
      rfl
  have hports := serveRead_ports (takenRead s rest) r.txn entry o
  have hfield {α : Type} (g : State → α) (hg : ∀ (u : State) (p : MemoryPort) (l : LinkPort), g { u with port := p, link := l } = g u) :
      g (serveRead (takenRead s rest) r.txn entry o) = g s :=
    (serveRead_field (takenRead s rest) r.txn entry o g hg).trans (hg s s.port { s.link with waiting := rest })
  have hcounted : tetherCounted (serveRead (takenRead s rest) r.txn entry o) w preview = tetherCounted s w preview :=
    hfield (fun u => tetherCounted u w preview) fun _ _ _ => rfl
  obtain ⟨h, hreported⟩ := tetherRead_reported (serveRead (takenRead s rest) r.txn entry o) w preview
  rw [hcounted] at hreported
  have hshots : ∀ v, v ≠ w → (serveRead (takenRead s rest) r.txn entry o).shot v = s.shot v := fun v _ =>
    hfield (fun u => u.shot v) fun _ _ _ => rfl
  refine ⟨_, (exec_takeRead htakes).trans (congrArg _ htaken), fun v hv => ?_, ?_, ?_, ?_, ?_, fun n hn => ?_, fun hn => ?_⟩
  · rw [hreported.field fun u => u.shot v]
    exact (State.shot_setShot_other _ _ _ _ hv).trans (hshots v hv)
  · exact (hreported.field State.pool).trans (hfield State.pool fun _ _ _ => rfl)
  · exact (hreported.field State.maps).trans (hfield State.maps fun _ _ _ => rfl)
  · exact (hreported.field fun u => u.tether.queue).trans (hfield (fun u => u.tether.queue) fun _ _ _ => rfl)
  · rw [hreported.field fun u => u.shot w]
    exact State.shot_setShot_same _ _ _
  · obtain ⟨hlink, hpass⟩ := hports.2.1 n hn
    exact ⟨(hreported.field State.link).trans hlink, (hreported.portField MemoryPort.pass).trans hpass⟩
  · obtain ⟨hport, hlink⟩ := hports.2.2 hn
    exact ⟨(hreported.portField MemoryPort.pass).trans (congrArg MemoryPort.pass hport), (hreported.field State.link).trans hlink⟩

end

section
/-! PROOFS. Orders on one shot that leave engine and lens alone: PROTECT and UNPROTECT, the card orders, RATE, TETHER DONE and SEND NOW.
Settles O41, O42, O56, O58 and O59. -/

namespace Sys2Proof.Machine

set_option Elab.async false

/-! ### Running an order on a named shot -/

theorem forShot_named {s : State} {o : OrderRecord} {w : Fin 64} (h : Names s o w) (f : Fin 64 → State → State × OrderStatus) :
    forShot o s f = f w s := by
  have hlt : o.window < 64 := h.window ▸ w.isLt
  obtain rfl : w = ⟨o.window, hlt⟩ := Fin.ext h.window.symm
  rw [forShot, dif_pos hlt, if_neg (by simpa using ⟨h.open_, h.seq⟩)]

/-- R167, R169: the rule has made its changes, and the order is finished with its status. -/
theorem runOrder_done {s t : State} {k : OrderKind} {o : OrderRecord} {img : List Byte} {st : OrderStatus}
    {f : OrderRecord → List Byte → State → State × OrderStatus} (hd : dispatchedOrder s k = some (o, img))
    (hf : f o img s = (t, st)) : runOrder s k f = .next (finishOrder (t.owingSince s) o st) := by
  rw [runOrder_dispatched f hd, hf]

theorem Reported.owing {s t : State} (h : Reported s t) (u : State) : Reported s (t.owingSince u) := by
  obtain ⟨ls, n, h⟩ := h
  exact ⟨ls, n, h.owing⟩

/-- Which notices an order owes is no part of what a release frees. -/
theorem Freed.owing {s t : State} {w : Fin 64} (h : Freed s t w) (u : State) : Freed s (t.owingSince u) w :=
  ⟨h.shot, h.maps, h.free, h.others⟩

/-- A release after changes to nothing but the shot it frees. -/
theorem Freed.since {s t u : State} {w : Fin 64} (h : Freed t u w) (maps : t.maps = s.maps) (free : t.pool.free = s.pool.free)
    (others : ∀ v, v ≠ w → t.shot v = s.shot v) : Freed s u w := by
  have hmaps (v : Fin 64) : t.mapsOf v = s.mapsOf v := congrArg (·.get v) maps
  refine ⟨h.shot, h.maps, ?_, fun v hv => ?_⟩
  · rw [h.free, free, hmaps]
  · obtain ⟨hshot, hm⟩ := h.others v hv
    exact ⟨hshot.trans (others v hv), hm.trans (hmaps v)⟩

/-- A block that an order's own notices do not touch. -/
theorem owing_field {α : Type} (t u : State) (f : State → α) (hf : ∀ (v : State) (p : MemoryPort), f { v with port := p } = f v := by intros; rfl) :
    f (t.owingSince u) = f t :=
  hf t _

theorem Reported.othersKept {s t u : State} {w : Fin 64} (h : Reported t u) (k : OthersKept s t w) : OthersKept s u w :=
  ⟨fun v hv => (h.field fun x => x.shot v).trans (k.shots v hv), (h.field State.pool).trans k.pool, (h.field State.maps).trans k.maps⟩

/-- A change of the record in window w alone. -/
theorem OthersKept.setShot (s : State) (w : Fin 64) (x : Shot) : OthersKept s (s.setShot w x) w :=
  ⟨fun _ hv => State.shot_setShot_other _ _ _ _ hv, rfl, rfl⟩

theorem OthersKept.owing {s t : State} {w : Fin 64} (h : OthersKept s t w) (u : State) : OthersKept s (t.owingSince u) w :=
  ⟨h.shots, h.pool, h.maps⟩

/-- R43: the release check of a SEALED shot that nothing keeps, after changes to that shot alone. -/
theorem OthersKept.freed {s t : State} {w : Fin 64} (h : OthersKept s t w) (hs : (t.shot w).state = .sealed)
    (hr : (t.shot w).releasable = true) : Freed s (releaseCheck t w) w := by
  rw [releaseCheck_released hs hr]
  exact (releaseShot_freed t w .released).since h.maps (congrArg Pool.free h.pool) h.shots

/-- A block that neither the release check touches nor the records, maps and pool it works on. -/
theorem releaseCheck_field {α : Type} (s : State) (w : Fin 64) (g : State → α)
    (hg : ∀ (u : State) (m : Memory) (p : MemoryPort) (n : NoticeUnit) (q : Pool) (t : ShotTable) (xs : Vector Shot 64)
      (ms : Vector WindowMaps 64),
      g { u with mem := m, port := p, notice := n, pool := q, table := t, shots := xs, maps := ms } = g u := by intros; rfl) :
    g (releaseCheck s w) = g s := by
  unfold releaseCheck
  split
  · exact releaseShot_field s w .released g hg
  · rfl

/-! ### PROTECT and UNPROTECT (R41) -/

/-- R41: what the protect orders do to the shot, before the release check. -/
def protectSet (s : State) (w : Fin 64) (flag : Bool) : State :=
  if (s.shot w).protect == flag then s else mirror (s.modShot w fun x => { x with protect := flag }) w [1]

theorem protectSet_reports (s : State) (w : Fin 64) (flag : Bool) :
    OnlyReports [.mirror w 1] 0 (s.modShot w fun x => { x with protect := flag }) (protectSet s w flag) := by
  unfold protectSet
  split
  · next h =>
    have hsame : s.modShot w (fun x => { x with protect := flag }) = s := by
      rw [← beq_iff_eq.mp h]
      exact State.setShot_shot s w
    rw [hsame]
    exact (OnlyReports.refl s).mono (by simp) (Nat.le_refl 0)
  · exact mirror_reports _ w [1]

theorem protectRule_discarding {s : State} {o : OrderRecord} {w : Fin 64} (hn : Names s o w) (flag : Bool) (img : List Byte)
    (h : (s.shot w).state = .discarding) : protectRule flag o img s = (s, .state) := by
  rw [protectRule, forShot_named hn, if_pos h]

theorem protectRule_named {s : State} {o : OrderRecord} {w : Fin 64} (hn : Names s o w) (flag : Bool) (img : List Byte)
    (h : (s.shot w).state ≠ .discarding) :
    protectRule flag o img s = (if flag then protectSet s w flag else releaseCheck (protectSet s w flag) w, .done) := by
  rw [protectRule, forShot_named hn, if_neg h]
  rfl

theorem protectSet_shot (s : State) (w : Fin 64) (flag : Bool) : (protectSet s w flag).shot w = { s.shot w with protect := flag } :=
  ((protectSet_reports s w flag).reported.field fun u => u.shot w).trans (State.shot_setShot_same _ _ _)

/-! ### The card orders (R146, R147) -/

theorem freeVerify_verifyOf (s : State) (w : Fin 64) : verifyOf (freeVerify s w) w = none := by
  unfold verifyOf freeVerify
  rw [Option.join_eq_none_iff, List.find?_eq_none.mpr]
  · exact .inl rfl
  · intro c hc
    obtain ⟨c', -, rfl⟩ := by simpa using hc
    cases c' with
    | none => simp
    | some x => by_cases h : x.window = w <;> simp [Option.filter, h]

/-- R146: the shot's context, if it has one, is freed with verify UNVERIFIED. -/
def unverified (s : State) (w : Fin 64) : State :=
  if (verifyOf s w).isSome then setVerify (freeVerify s w) w .unverified else s

theorem unverified_verifyOf (s : State) (w : Fin 64) : verifyOf (unverified s w) w = none := by
  unfold unverified
  split
  · exact freeVerify_verifyOf s w
  · next h => simpa using h

/-- R146: what CARD DONE comes to, before the release check. -/
def cardEnded (s : State) (w : Fin 64) : State := (unverified s w).modShot w fun x => { x with card := .done }

theorem cardEnded_othersKept (s : State) (w : Fin 64) : OthersKept s (cardEnded s w) w := by
  unfold cardEnded unverified
  split
  · exact ⟨fun v hv => (State.shot_setShot_other _ _ _ _ hv).trans (State.shot_setShot_other _ _ _ _ hv), rfl, rfl⟩
  · exact .setShot s w _

theorem cardEnded_shot (s : State) (w : Fin 64) : (cardEnded s w).shot w = { s.shot w with
    card := .done
    verify := if (verifyOf s w).isSome then .unverified else (s.shot w).verify } := by
  unfold cardEnded unverified
  split
  · rw [State.shot_modShot_same, setVerify, State.shot_modShot_same]
    rfl
  · exact State.shot_setShot_same _ _ _

/-- R147: what CARD RETRY comes to. -/
def cardRetried (s : State) (w : Fin 64) : State :=
  (freeVerify s w).modShot w fun x => { x with card := .pending, cardBytes := 0, verify := .none }

theorem cardRetried_othersKept (s : State) (w : Fin 64) : OthersKept s (cardRetried s w) w :=
  ⟨fun _ hv => State.shot_setShot_other _ _ _ _ hv, rfl, rfl⟩

section
variable {s : State} {o : OrderRecord} {w : Fin 64} (hn : Names s o w) (img : List Byte)
include hn

theorem cardDoneRule_state (h : (s.shot w).state ≠ .sealed ∨ ((s.shot w).card ≠ .reading ∧ (s.shot w).card ≠ .failed)) :
    cardDoneRule o img s = (s, .state) := by
  rw [cardDoneRule, forShot_named hn, if_pos (by simpa using h)]

/-- R146: the checks of CARD DONE on a SEALED shot that is READING or FAILED. -/
theorem cardDoneRule_sealed (hs : (s.shot w).state = .sealed) (hc : (s.shot w).card = .reading ∨ (s.shot w).card = .failed) :
    cardDoneRule o img s =
      if (s.shot w).cardBytes < (s.shot w).rawLength then (s, .tooEarly)
      else if (s.shot w).card = .failed ∧ flagAt o.params 0 = false then (s, .verifyFailed)
      else (releaseCheck (mirror (cardEnded s w) w [5]) w, .done) := by
  rw [cardDoneRule, forShot_named hn, if_neg (by rcases hc with h | h <;> simp [hs, h])]
  simp only [Bool.and_eq_true, decide_eq_true_eq, Bool.not_eq_true']
  rfl

theorem cardRetryRule_state (h : (s.shot w).state ≠ .sealed ∨ ((s.shot w).card ≠ .reading ∧ (s.shot w).card ≠ .failed)) :
    cardRetryRule o img s = (s, .state) := by
  rw [cardRetryRule, forShot_named hn, if_pos (by simpa using h)]

theorem cardRetryRule_sealed (hs : (s.shot w).state = .sealed) (hc : (s.shot w).card = .reading ∨ (s.shot w).card = .failed) :
    cardRetryRule o img s =
      (releaseCheck (mirror (cardRetried s w) w [5]) w, .done) := by
  rw [cardRetryRule, forShot_named hn, if_neg (by rcases hc with h | h <;> simp [hs, h])]
  rfl

end

/-- A shot whose card copy is PENDING is kept. -/
theorem releasable_pending {x : Shot} (h : x.card = .pending) : x.releasable = false := by simp [Shot.releasable, h]

/-! ### Changes of an entry and its shot (R154, R156) -/

/-- R154, R156: the record in window w and the tether queue have been replaced, and the head follows. -/
def queueChanged (s : State) (w : Fin 64) (x : Shot) (q : List TetherEntry) : State := headSet ((s.setShot w x).setTetherQueue q)

@[simp] theorem headSet_queueChanged (s : State) (w : Fin 64) (x : Shot) (q : List TetherEntry) :
    headSet (queueChanged s w x q) = queueChanged s w x q := rfl

theorem headSet_queueJoined (s : State) (w : Fin 64) (send : SendWhat) (forced : Bool) :
    headSet (queueJoined s w send forced) = queueChanged s w (joinedShot (s.shot w) send)
      (insertEntry s.tether.queue (joinedEntry w (s.shot w) send forced)) := rfl

theorem Reported.requeued {s t : State} (h : Reported s t) (q : List TetherEntry) :
    Reported (headSet (s.setTetherQueue q)) (refreshHead (t.setTetherQueue q)) :=
  (h.map fun u => headSet (u.setTetherQueue q)).trans (refreshHead_reported _)

theorem Reported.headed {s t : State} (h : Reported s t) : Reported (headSet s) (refreshHead t) :=
  (h.map headSet).trans (refreshHead_reported t)

/-- What an order at the tether makes of s: the record in window w is x, the queue is q, and the head is the one that it gives. -/
structure Requeued (s u : State) (w : Fin 64) (x : Shot) (q : List TetherEntry) : Prop where
  others : OthersKept s u w
  shot : u.shot w = x
  queue : u.tether.queue = q
  rules : u.tether.rules = s.tether.rules
  head : u.tether.head = tetherHeadOf u

theorem Requeued.owing {s u : State} {w : Fin 64} {x : Shot} {q : List TetherEntry} (h : Requeued s u w x q) (t : State) :
    Requeued s (u.owingSince t) w x q :=
  ⟨h.others.owing t, h.shot, h.queue, h.rules, (owing_field u t fun v => v.tether.head).trans
    (h.head.trans (owing_field u t tetherHeadOf).symm)⟩

theorem Reported.requeues {s t u : State} {w : Fin 64} {x : Shot} {q : List TetherEntry} (h : Reported (queueChanged t w x q) u)
    (ht : OthersKept s t w) (hrules : t.tether.rules = s.tether.rules) : Requeued s u w x q where
  others := h.othersKept ⟨fun v hv => (State.shot_setShot_other _ _ _ _ hv).trans (ht.shots v hv), ht.pool, ht.maps⟩
  shot := (h.field fun u => u.shot w).trans (State.shot_setShot_same _ _ _)
  queue := h.field fun u => u.tether.queue
  rules := (h.field fun u => u.tether.rules).trans hrules
  head := (h.field fun u => u.tether.head).trans (h.field tetherHeadOf).symm

theorem OthersKept.refl (s : State) (w : Fin 64) : OthersKept s s w := ⟨fun _ _ => rfl, rfl, rfl⟩

/-- A shot that is QUEUED is kept. -/
theorem releasable_queued {x : Shot} (h : x.tether = .queued) : x.releasable = false := by simp [Shot.releasable, h]

/-! ### TETHER DONE (R159, R160) -/

theorem previewPartDone_reported {s : State} {w : Fin 64} {e : TetherEntry} (h : tetherEntry s w = some e) :
    Reported (queueChanged s w { s.shot w with tether := .queued, sendWhat := some .raw }
      (insertEntry (s.tether.queue.filter fun q => q.window ≠ w) { e with send := .raw, ready := true })) (previewPartDone s w) := by
  have hmirror := mirror_reported (s.modShot w fun x => { x with tether := .queued, sendWhat := some .raw }) w [5]
  have hentry : tetherEntry (mirror (s.modShot w fun x => { x with tether := .queued, sendWhat := some .raw }) w [5]) w = some e :=
    (hmirror.field fun u => tetherEntry u w).trans h
  have hqueue := hmirror.field fun u => u.tether.queue
  unfold previewPartDone
  simp only [hentry, hqueue]
  exact hmirror.requeued _

theorem entryDone_reported (s : State) (w : Fin 64) (t : TetherStatus) :
    Reported (queueChanged s w { s.shot w with tether := t, sendWhat := none } (s.tether.queue.filter fun e => e.window ≠ w))
      (entryDone s w t) := by
  have hmirror := mirror_reported (s.modShot w fun x => { x with tether := t, sendWhat := none }) w [5]
  have hqueue := hmirror.field fun u => u.tether.queue
  unfold entryDone
  simp only [hqueue]
  exact hmirror.requeued _

/-- R159, R160: TETHER DONE naming a part that the entry of a SEALED shot carries. -/
theorem tetherDoneRule_carried {s : State} {o : OrderRecord} {w : Fin 64} {p : TetherPart} {outcome : TetherStatus} {send : SendWhat}
    (hn : Names s o w) (img : List Byte) (hs : (s.shot w).state = .sealed)
    (ht : (s.shot w).tether = .queued ∨ (s.shot w).tether = .sending) (hsend : (s.shot w).sendWhat = some send)
    (hpart : tetherPartOf (field o.params 0 1) = some p) (houtcome : tetherOutcomeOf (field o.params 1 1) = some outcome)
    (hcarried : p.carriedBy send = true) :
    tetherDoneRule o img s =
      if outcome = .sent ∧ tetherCovered (s.shot w) p send = false then (s, .tooEarly)
      else
        let t := if p = .preview ∧ send = .previewThenRaw then previewPartDone s w else entryDone s w outcome
        (if (t.shot w).tether = (s.shot w).tether then t else releaseCheck t w, .done) := by
  have hstate : ((decide ((s.shot w).state ≠ .sealed)) ||
      (decide ((s.shot w).tether ≠ .queued) && decide ((s.shot w).tether ≠ .sending))) = false := by
    rcases ht with h | h <;> simp [hs, h]
  rw [tetherDoneRule, forShot_named hn]
  simp only [hpart, houtcome, hstate, hsend, hcarried, Bool.not_true, Bool.false_eq_true, if_false, Bool.and_eq_true,
    decide_eq_true_eq, Bool.not_eq_true']

/-- R159: the outcomes a TETHER DONE can give. -/
theorem tetherOutcomeOf_some {n : Nat} {t : TetherStatus} (h : tetherOutcomeOf n = some t) : t = .sent ∨ t = .abandoned := by
  unfold tetherOutcomeOf at h
  split at h
  · exact .inl (Option.some.inj h).symm
  · exact .inr (Option.some.inj h).symm
  · cases h

/-! ### SEND NOW (R162) -/

theorem sendNowRule_noCode {s : State} {o : OrderRecord} {w : Fin 64} (hn : Names s o w) (img : List Byte)
    (h : sendWhatOf (field o.params 0 1) = none) : sendNowRule o img s = (s, .badParam) := by
  rw [sendNowRule, forShot_named hn]
  simp only [h]

theorem sendNowRule_named {s : State} {o : OrderRecord} {w : Fin 64} {send : SendWhat} (hn : Names s o w) (img : List Byte)
    (h : sendWhatOf (field o.params 0 1) = some send) :
    sendNowRule o img s =
      if (s.shot w).state = .sealed ∧
          ((s.shot w).tether = .notSelected ∨ (s.shot w).tether = .sent ∨ (s.shot w).tether = .abandoned) then
        (releaseCheck (joinQueue s w (degrade (s.shot w) send) true) w, .done)
      else (s, .state) := by
  rw [sendNowRule, forShot_named hn]
  simp only [h]
  by_cases hs : (s.shot w).state = .sealed <;> cases (s.shot w).tether <;> simp [hs]

/-! ### RATE (R42, R161) -/

theorem selected_congr {s t : State} (h : t.tether.rules = s.tether.rules) (x : Shot) : selected t x = selected s x := by
  rw [selected, selected, h]

theorem tetherHeadOf_setShot {s : State} {w : Fin 64} {x : Shot} (ht : x.tether = (s.shot w).tether)
    (hp : x.previewLength = (s.shot w).previewLength) (hr : x.rawLength = (s.shot w).rawLength) :
    tetherHeadOf (s.setShot w x) = tetherHeadOf s := by
  have hfields (v : Fin 64) : ((s.setShot w x).shot v).tether = (s.shot v).tether ∧
      ((s.setShot w x).shot v).previewLength = (s.shot v).previewLength ∧ ((s.setShot w x).shot v).rawLength = (s.shot v).rawLength := by
    by_cases h : v = w
    · subst h
      rw [State.shot_setShot_same]
      exact ⟨ht, hp, hr⟩
    · rw [State.shot_setShot_other _ _ _ _ h]
      exact ⟨rfl, rfl, rfl⟩
  simp only [tetherHeadOf, hfields, State.setShot_tether]

/-- R156: a current head stays. -/
theorem refreshHead_current {s : State} (h : s.tether.head = tetherHeadOf s) : refreshHead s = s := by
  unfold refreshHead
  exact if_pos h

/-- R42: a shot's record with the values that RATE gives it. -/
def ratedShot (x : Shot) (o : OrderRecord) : Shot :=
  { x with rating := min (field o.params 0 1) 5, storyKey := field o.params 1 2, urgent := flagAt o.params 3 }

/-- R42: what RATE does before the Tether Queue looks at the shot. -/
def rated (s : State) (w : Fin 64) (o : OrderRecord) : State :=
  rateRecord s w (min (field o.params 0 1) 5) (field o.params 1 2) (flagAt o.params 3)

theorem rated_reports (s : State) (w : Fin 64) (o : OrderRecord) :
    OnlyReports [.mirror w 1] 0 (s.setShot w (ratedShot (s.shot w) o)) (rated s w o) := by
  unfold rated rateRecord
  dsimp only
  split
  · next h =>
    simp only [Bool.and_eq_true, decide_eq_true_eq] at h
    have hsame : ratedShot (s.shot w) o = s.shot w := by
      obtain ⟨⟨hr, hk⟩, hu⟩ := h
      rw [ratedShot, ← hr, ← hk, ← hu]
    rw [hsame, State.setShot_shot]
    exact (OnlyReports.refl s).mono (by simp) (Nat.le_refl 0)
  · exact mirror_reports _ w [1]

theorem rateRule_discarding {s : State} {o : OrderRecord} {w : Fin 64} (hn : Names s o w) (img : List Byte)
    (h : (s.shot w).state = .discarding) : rateRule o img s = (s, .state) := by
  rw [rateRule, forShot_named hn, if_pos h]

theorem rated_shot (s : State) (w : Fin 64) (o : OrderRecord) : (rated s w o).shot w = ratedShot (s.shot w) o :=
  ((rated_reports s w o).reported.field fun u => u.shot w).trans (State.shot_setShot_same _ _ _)

theorem rateRule_named {s : State} {o : OrderRecord} {w : Fin 64} (hn : Names s o w) (img : List Byte)
    (h : (s.shot w).state ≠ .discarding) :
    rateRule o img s = (if (s.shot w).state = .sealed then rateTether (rated s w o) w else rated s w o, .done) := by
  have hstate : ((rated s w o).shot w).state = (s.shot w).state := by rw [rated_shot, ratedShot]
  rw [← hstate, rateRule, forShot_named hn, if_neg h]
  rfl

/-- R161: a QUEUED entry without the forced mark that the table no longer selects. -/
theorem rateQueued_dropped {s : State} {w : Fin 64} (e : TetherEntry) (h : selected s (s.shot w) = none) :
    Reported (queueChanged s w { s.shot w with tether := .notSelected, sendWhat := none }
      (s.tether.queue.filter fun e => e.window ≠ w)) (rateQueued s w e) := by
  have hmirror := mirror_reported (s.modShot w fun x => { x with tether := .notSelected, sendWhat := none }) w [5]
  have hqueue := hmirror.field fun u => u.tether.queue
  unfold rateQueued
  simp only [h, hqueue]
  exact hmirror.requeued _

/-- R161: a QUEUED entry as the table now sends it. -/
def ratedEntry (x : Shot) (e : TetherEntry) (send : SendWhat) : TetherEntry :=
  { e with send := degrade x send, urgent := x.urgent, ready := readyFlag x (degrade x send) }

/-- R161: the queue with it, in its place or at the end of its new class. -/
def ratedQueue (s : State) (w : Fin 64) (e : TetherEntry) (send : SendWhat) : List TetherEntry :=
  if e.urgent = (s.shot w).urgent then s.tether.queue.map fun q => if q.window = w then ratedEntry (s.shot w) e send else q
  else insertEntry (withoutEntry s.tether.queue w) (ratedEntry (s.shot w) e send)

theorem rateQueued_kept {s : State} {w : Fin 64} {send : SendWhat} (e : TetherEntry) (h : selected s (s.shot w) = some send) :
    Reported (queueChanged s w { s.shot w with sendWhat := some (degrade (s.shot w) send) } (ratedQueue s w e send))
      (rateQueued s w e) := by
  have hrecord : Reported (s.setShot w { s.shot w with sendWhat := some (degrade (s.shot w) send) })
      (if (s.shot w).sendWhat = some (degrade (s.shot w) send) then s
        else mirror (s.modShot w fun x => { x with sendWhat := some (degrade (s.shot w) send) }) w [5]) := by
    split
    · next hsame =>
      rw [← hsame, State.setShot_shot]
      exact .refl s
    · exact mirror_reported _ w [5]
  have hqueue := hrecord.field fun u => u.tether.queue
  unfold rateQueued
  simp only [h, hqueue]
  exact hrecord.requeued _

/-- R161: the release check is made only when the tether status has changed. -/
theorem rateTether_kept {s : State} {w : Fin 64} {x : Shot} (hx : (refreshHead (rateStatus s w)).shot w = x)
    (h : x.tether = (s.shot w).tether ∨ x.releasable = false) : rateTether s w = refreshHead (rateStatus s w) := by
  rw [rateTether_eq, hx]
  split
  · rfl
  · next hne => exact releaseCheck_kept fun _ => by rw [hx]; exact h.resolve_left hne

theorem rateTether_checked {s : State} {w : Fin 64} {x : Shot} (hx : (refreshHead (rateStatus s w)).shot w = x)
    (h : x.tether ≠ (s.shot w).tether) : rateTether s w = releaseCheck (refreshHead (rateStatus s w)) w := by
  rw [rateTether_eq, hx, if_neg h]

theorem evaluateShot_joins {s : State} {w : Fin 64} {send : SendWhat} (h : selected s (s.shot w) = some send) :
    evaluateShot s w = joinQueue s w (degrade (s.shot w) send) false := by
  rw [evaluateShot, h]

theorem evaluateShot_rejects {s : State} {w : Fin 64} (h : selected s (s.shot w) = none) :
    evaluateShot s w = mirror (s.setShot w { s.shot w with tether := .notSelected, sendWhat := none }) w [5] := by
  rw [evaluateShot, h]
  rfl

theorem evaluateUndecided_applies {s : State} {w : Fin 64} (hs : (s.shot w).state = .sealed) (ht : (s.shot w).tether = .undecided)
    (hi : (s.shot w).inputsPresent = true) : evaluateUndecided s w = evaluateShot s w := by
  rw [evaluateUndecided, if_pos (by simp [hs, ht, hi])]

theorem evaluateUndecided_waits {s : State} {w : Fin 64}
    (h : ¬((s.shot w).state = .sealed ∧ (s.shot w).tether = .undecided ∧ (s.shot w).inputsPresent = true)) :
    evaluateUndecided s w = s := by
  rw [evaluateUndecided, if_neg (by simpa [and_assoc] using h)]

theorem rateStatus_undecided {s : State} {w : Fin 64} (ht : (s.shot w).tether = .undecided) :
    rateStatus s w = evaluateUndecided s w := by
  rw [rateStatus, ht]

/-- R153, R161: a shot that the table selects joins the queue. -/
theorem rateStatus_joins {s : State} {w : Fin 64} {send : SendWhat} (hs : (s.shot w).state = .sealed)
    (hsel : selected s (s.shot w) = some send)
    (h : ((s.shot w).tether = .undecided ∧ (s.shot w).inputsPresent = true) ∨ (s.shot w).tether = .notSelected) :
    rateStatus s w = joinQueue s w (degrade (s.shot w) send) false := by
  rcases h with ⟨ht, hinputs⟩ | ht
  · rw [rateStatus_undecided ht, evaluateUndecided_applies hs ht hinputs, evaluateShot_joins hsel]
  · rw [rateStatus, ht, hsel]

/-- R153, R161: a shot with its inputs present that the table does not select. -/
theorem rateStatus_rejects {s : State} {w : Fin 64} (hs : (s.shot w).state = .sealed) (hsel : selected s (s.shot w) = none)
    (h : (s.shot w).tether = .undecided ∧ (s.shot w).inputsPresent = true) :
    Reported (s.setShot w { s.shot w with tether := .notSelected, sendWhat := none }) (rateStatus s w) := by
  obtain ⟨ht, hinputs⟩ := h
  rw [rateStatus_undecided ht, evaluateUndecided_applies hs ht hinputs, evaluateShot_rejects hsel]
  exact mirror_reported _ w [5]

theorem rateStatus_queued {s : State} {w : Fin 64} {e : TetherEntry} (ht : (s.shot w).tether = .queued)
    (he : tetherEntry s w = some e) (hf : e.forced = false) : rateStatus s w = rateQueued s w e := by
  rw [rateStatus, ht, he]
  exact if_neg (by rw [hf]; decide)

/-- R161: what RATE does not put under the table stays in its tether status. -/
theorem rateStatus_stays {s : State} {w : Fin 64}
    (h : (s.shot w).tether = .notRequired ∨ ((s.shot w).tether = .undecided ∧ (s.shot w).inputsPresent = false) ∨
      ((s.shot w).tether = .notSelected ∧ selected s (s.shot w) = none) ∨
      ((s.shot w).tether = .queued ∧ ∃ e, tetherEntry s w = some e ∧ e.forced = true) ∨
      (s.shot w).tether = .sending ∨ (s.shot w).tether = .sent ∨ (s.shot w).tether = .abandoned) : rateStatus s w = s := by
  rcases h with ht | ⟨ht, hinputs⟩ | ⟨ht, hsel⟩ | ⟨ht, e, he, hf⟩ | ht | ht | ht
  · rw [rateStatus, ht]
  · rw [rateStatus_undecided ht, evaluateUndecided_waits fun h => by rw [hinputs] at h; exact nomatch h.2.2]
  · rw [rateStatus, ht, hsel]
  · rw [rateStatus, ht, he]
    exact if_pos hf
  all_goals rw [rateStatus, ht]

end Sys2Proof.Machine

open Sys2Proof Sys2Proof.Machine

/-- Settles O41. -/
theorem protectFlagFollowsOrders : Obligations.ProtectFlagFollowsOrders := by
  intro s o img w hn
  refine ⟨fun hd hne => ?_, fun hd hne hkept => ?_, fun hd hs hfree => ?_, fun hd h => ?_, fun hd h => ?_⟩
  · exact ⟨_, runOrder_done hd (protectRule_named hn true img hne), (protectSet_reports s w true).owing⟩
  · have hcheck : releaseCheck (protectSet s w false) w = protectSet s w false := by
      refine releaseCheck_kept fun hs => ?_
      rw [protectSet_shot] at hs ⊢
      exact hkept hs
    refine ⟨_, runOrder_done hd (protectRule_named hn false img hne), ?_⟩
    show OnlyReports _ _ _ ((releaseCheck (protectSet s w false) w).owingSince s)
    rw [hcheck]
    exact (protectSet_reports s w false).owing
  · have hkept := (protectSet_reports s w false).reported.othersKept (.setShot s w _)
    have hshot := protectSet_shot s w false
    exact ⟨_, runOrder_done hd (protectRule_named hn false img (by rw [hs]; decide)),
      (hkept.freed (by rw [hshot]; exact hs) (by rw [hshot]; exact hfree)).owing s⟩
  · exact runOrder_unchanged hd (protectRule_discarding hn true img h)
  · exact runOrder_unchanged hd (protectRule_discarding hn false img h)

/-- Settles O56. -/
theorem cardOrdersChangeCardStatus : Obligations.CardOrdersChangeCardStatus := by
  intro s o img w hn
  refine ⟨fun hd => ⟨fun h => runOrder_unchanged hd (cardDoneRule_state hn img h), fun hs hc => ?_⟩,
    fun hd h => runOrder_unchanged hd (cardRetryRule_state hn img h), fun hd hs hc => ?_⟩
  · have hrule := cardDoneRule_sealed hn img hs hc
    refine ⟨fun hearly => runOrder_unchanged hd (by rw [hrule, if_pos hearly]), fun hlen hfailed hflag => ?_, fun hlen hok => ?_⟩
    · exact runOrder_unchanged hd (by rw [hrule, if_neg (Nat.not_lt.mpr hlen), if_pos ⟨hfailed, hflag⟩])
    · have hok' : ¬((s.shot w).card = .failed ∧ flagAt o.params 0 = false) := by
        rintro ⟨hf, hflag⟩
        rcases hok with h | h
        · rw [h] at hf
          cases hf
        · rw [h] at hflag
          cases hflag
      rw [if_neg (Nat.not_lt.mpr hlen), if_neg hok'] at hrule
      have hmirror := mirror_reported (cardEnded s w) w [5]
      have hothers := hmirror.othersKept (cardEnded_othersKept s w)
      have hshot := (hmirror.field fun u => u.shot w).trans (cardEnded_shot s w)
      have hverify : verifyOf ((releaseCheck (mirror (cardEnded s w) w [5]) w).owingSince s) w = none := by
        rw [owing_field _ _ fun u => verifyOf u w, releaseCheck_field _ _ fun u => verifyOf u w, hmirror.field fun u => verifyOf u w]
        exact unverified_verifyOf s w
      refine ⟨fun hkept => ⟨_, runOrder_done hd hrule, hverify, ?_⟩, fun hfree => ⟨_, runOrder_done hd hrule, hverify, ?_⟩⟩
      · rw [releaseCheck_kept fun _ => by rw [hshot]; exact hkept]
        exact ⟨hothers.pool, hothers.maps, hothers.shots, hshot⟩
      · exact (hothers.freed (by rw [hshot]; exact hs) (by rw [hshot]; exact hfree)).owing s
  · have hmirror := mirror_reported (cardRetried s w) w [5]
    have hothers := hmirror.othersKept (cardRetried_othersKept s w)
    have hshot := (hmirror.field fun u => u.shot w).trans (State.shot_setShot_same _ _ _)
    refine ⟨_, runOrder_done hd (cardRetryRule_sealed hn img hs hc), ?_⟩
    rw [releaseCheck_kept fun _ => by rw [hshot]; exact releasable_pending rfl]
    exact ⟨(hmirror.field fun u => verifyOf u w).trans (freeVerify_verifyOf s w), hothers.pool, hothers.maps, hothers.shots, hshot⟩

/-- Settles O58. -/
theorem tetherDoneEndsEntry : Obligations.TetherDoneEndsEntry := by
  intro s o img w p outcome send hd hn hs ht hsend hpart houtcome hcarried
  have hrule := tetherDoneRule_carried hn img hs ht hsend hpart houtcome hcarried
  refine ⟨fun hsent hopen => runOrder_unchanged hd (by rw [hrule, if_pos ⟨hsent, hopen⟩]), fun hcovered => ?_⟩
  have hended : ¬(outcome = .sent ∧ tetherCovered (s.shot w) p send = false) := by
    rintro ⟨rfl, hopen⟩
    rcases hcovered with h | h
    · cases h
    · rw [hopen] at h
      cases h
  rw [if_neg hended] at hrule
  refine ⟨fun e hp hsend' he => ?_, fun hother => ?_⟩
  · have hchanged := (previewPartDone_reported he).requeues (.refl s w) rfl
    have hkept : releaseCheck (previewPartDone s w) w = previewPartDone s w :=
      releaseCheck_kept fun _ => by rw [hchanged.shot]; exact releasable_queued rfl
    simp only [if_pos (And.intro hp hsend'), hkept, ite_self] at hrule
    obtain ⟨hothers, hshot, hqueue, hrules, -⟩ := hchanged.owing s
    exact ⟨_, runOrder_done hd hrule, hothers, hshot, hqueue, hrules⟩
  · have hchanged := (entryDone_reported s w outcome).requeues (.refl s w) rfl
    have hne : ((entryDone s w outcome).shot w).tether ≠ (s.shot w).tether := by
      rw [hchanged.shot]
      show outcome ≠ (s.shot w).tether
      rcases tetherOutcomeOf_some houtcome with rfl | rfl <;> rcases ht with h | h <;> rw [h] <;> decide
    have hcase : ¬(p = .preview ∧ send = .previewThenRaw) := fun ⟨hp, hsend'⟩ => hother.elim (· hp) (· hsend')
    simp only [if_neg hcase, if_neg hne] at hrule
    refine ⟨fun hkept => ?_, fun hfree => ?_⟩
    · rw [releaseCheck_kept fun _ => by rw [hchanged.shot]; exact hkept] at hrule
      obtain ⟨hothers, hshot, hqueue, hrules, -⟩ := hchanged.owing s
      exact ⟨_, runOrder_done hd hrule, hothers, hshot, hqueue, hrules⟩
    · refine ⟨_, runOrder_done hd hrule,
        (hchanged.others.freed (by rw [hchanged.shot]; exact hs) (by rw [hchanged.shot]; exact hfree)).owing s, ?_⟩
      exact (releaseCheck_field _ w fun u => u.tether.queue).trans hchanged.queue

/-- Settles O59. -/
theorem sendNowJoinsUrgentClass : Obligations.SendNowJoinsUrgentClass := by
  intro s o img w hd hn
  refine ⟨fun hnone => runOrder_unchanged hd (sendNowRule_noCode hn img hnone), fun send hsend => ?_⟩
  have hrule := sendNowRule_named hn img hsend
  refine ⟨fun hrefused => runOrder_unchanged hd ?_, fun hs ht => ?_⟩
  · rw [hrule, if_neg]
    rintro ⟨hs, ht⟩
    rcases hrefused with h | h | h | h | h
    · exact h hs
    all_goals simp [h] at ht
  · have hchanged : Requeued s (joinQueue s w (degrade (s.shot w) send) true) w (joinedShot (s.shot w) (degrade (s.shot w) send))
        (insertEntry s.tether.queue (joinedEntry w (s.shot w) (degrade (s.shot w) send) true)) :=
      (joinQueue_reported s w (degrade (s.shot w) send) true).requeues (.refl s w) rfl
    rw [if_pos ⟨hs, ht⟩, releaseCheck_kept fun _ => by rw [hchanged.shot]; exact releasable_queued rfl] at hrule
    obtain ⟨hothers, hshot, hqueue, -, -⟩ := hchanged.owing s
    exact ⟨_, runOrder_done hd hrule, hshot, hothers.shots, hothers.pool, hothers.maps, hqueue⟩

/-- Settles O42. -/
theorem rateSetsRating : Obligations.RateSetsRating := by
  intro s o img w x hd hn hx
  obtain rfl : x = ratedShot (s.shot w) o := hx
  have hreports := rated_reports s w o
  have hreported := hreports.reported
  have hshot := rated_shot s w o
  have hbase : OthersKept s (rated s w o) w := hreported.othersKept (.setShot s w _)
  have htether : (rated s w o).tether = s.tether := hreported.field State.tether
  have hrules : (rated s w o).tether.rules = s.tether.rules := congrArg _ htether
  have hentry : tetherEntry (rated s w o) w = tetherEntry s w := hreported.field fun u => tetherEntry u w
  have hselected (y : Shot) : selected (rated s w o) y = selected s y := selected_congr hrules y
  refine ⟨fun hstay => ?_, fun hs => ?_, fun h => runOrder_unchanged hd (rateRule_discarding hn img h)⟩
  · rcases hstay with hs | ⟨hs, ht, hhead⟩
    · have hrule := rateRule_named hn img (by rw [hs]; decide)
      rw [if_neg (by rw [hs]; decide)] at hrule
      exact ⟨_, runOrder_done hd hrule, hreports.owing⟩
    · have hrule := rateRule_named hn img (by rw [hs]; decide)
      have hstatus : rateStatus (rated s w o) w = rated s w o := rateStatus_stays (.inl (by rw [hshot]; exact ht))
      have hcurrent : refreshHead (rated s w o) = rated s w o := by
        refine refreshHead_current ?_
        rw [htether, hreported.field tetherHeadOf, tetherHeadOf_setShot (x := ratedShot (s.shot w) o) rfl rfl rfl]
        exact hhead
      have hkept : rateTether (rated s w o) w = rated s w o := by
        rw [rateTether_kept rfl, hstatus, hcurrent]
        left
        rw [hstatus, hcurrent]
      rw [if_pos hs, hkept] at hrule
      exact ⟨_, runOrder_done hd hrule, hreports.owing⟩
  · have hrule := rateRule_named hn img (by rw [hs]; decide)
    rw [if_pos hs] at hrule
    have hs' : ((rated s w o).shot w).state = .sealed := by rw [hshot]; exact hs
    refine ⟨fun send hsel hcase => ?_, fun hsel hcase => ?_, fun send e hsel ht he hf => ?_, fun hcase => ?_⟩
    · have hstatus : rateStatus (rated s w o) w = joinQueue (rated s w o) w (degrade (ratedShot (s.shot w) o) send) false := by
        rw [rateStatus_joins (send := send) hs' (by rw [hshot, hselected]; exact hsel) (by rw [hshot]; exact hcase), hshot]
      have hjoined := (joinQueue_reported (rated s w o) w (degrade (ratedShot (s.shot w) o) send) false).headed
      have hchanged : Requeued s (refreshHead (rateStatus (rated s w o) w)) w
          (joinedShot (ratedShot (s.shot w) o) (degrade (ratedShot (s.shot w) o) send))
          (insertEntry s.tether.queue
            (joinedEntry w (ratedShot (s.shot w) o) (degrade (ratedShot (s.shot w) o) send) false)) := by
        rw [hstatus, ← hshot, ← htether]
        rw [← hshot, headSet_queueJoined, headSet_queueChanged] at hjoined
        exact hjoined.requeues hbase hrules
      rw [rateTether_kept hchanged.shot (.inr (releasable_queued rfl))] at hrule
      obtain ⟨hothers, hshot', hqueue, -, hhead⟩ := hchanged.owing s
      exact ⟨_, runOrder_done hd hrule, hothers, hhead, hshot', hqueue⟩
    · have hchanged : Requeued s (refreshHead (rateStatus (rated s w o) w)) w
          { ratedShot (s.shot w) o with tether := .notSelected, sendWhat := none }
          (if (s.shot w).tether = .queued then s.tether.queue.filter (fun e => e.window ≠ w) else s.tether.queue) := by
        rcases hcase with hcase | ⟨ht, e, he, hf⟩
        · have hrejected := (rateStatus_rejects hs' (by rw [hshot, hselected]; exact hsel) (by rw [hshot]; exact hcase)).headed
          rw [hshot] at hrejected
          rw [if_neg (by rw [hcase.1]; decide), ← htether]
          exact Reported.requeues hrejected hbase hrules
        · have hdropped := (rateQueued_dropped e (s := rated s w o) (w := w) (by rw [hshot, hselected]; exact hsel)).headed
          rw [rateStatus_queued (by rw [hshot]; exact ht) (hentry.trans he) hf, if_pos ht, ← htether, ← hshot]
          rw [headSet_queueChanged] at hdropped
          exact hdropped.requeues hbase hrules
      refine ⟨fun hkept => ?_, fun hfree => ?_⟩
      · rw [rateTether_kept hchanged.shot (.inr hkept)] at hrule
        obtain ⟨hothers, hshot', hqueue, -, hhead⟩ := hchanged.owing s
        exact ⟨_, runOrder_done hd hrule, hothers, hhead, hshot', hqueue⟩
      · rw [rateTether_checked hchanged.shot] at hrule
        · exact ⟨_, runOrder_done hd hrule,
            (hchanged.others.freed (by rw [hchanged.shot]; exact hs) (by rw [hchanged.shot]; exact hfree)).owing s⟩
        · rw [hshot]
          show TetherStatus.notSelected ≠ (s.shot w).tether
          rcases hcase with ⟨h, -⟩ | ⟨h, -⟩ <;> rw [h] <;> decide
    · have hqueued := (rateQueued_kept e (s := rated s w o) (w := w) (send := send) (by rw [hshot, hselected]; exact hsel)).headed
      have hchanged : Requeued s (refreshHead (rateStatus (rated s w o) w)) w
          { ratedShot (s.shot w) o with sendWhat := some (degrade (ratedShot (s.shot w) o) send) }
          (ratedQueue (rated s w o) w e send) := by
        rw [rateStatus_queued (by rw [hshot]; exact ht) (hentry.trans he) hf, ← hshot]
        rw [headSet_queueChanged] at hqueued
        exact hqueued.requeues hbase hrules
      rw [rateTether_kept hchanged.shot (.inl (by rw [hshot]))] at hrule
      obtain ⟨hothers, hshot', hqueue, -, hhead⟩ := hchanged.owing s
      rw [ratedQueue, hshot, htether] at hqueue
      refine ⟨_, runOrder_done hd hrule, hothers, hhead, hshot', fun hu => ?_, fun hu => ?_⟩
      · rw [hqueue, if_pos hu, ratedEntry, ← hu]
      · rw [hqueue, if_neg hu]
        rfl
    · have hstatus : rateStatus (rated s w o) w = rated s w o := rateStatus_stays (.inr (by rw [hshot, hentry, hselected]; exact hcase))
      have hsame := hreported.headed
      have hchanged : Requeued s (refreshHead (rateStatus (rated s w o) w)) w (ratedShot (s.shot w) o) s.tether.queue := by
        rw [hstatus]
        exact Reported.requeues (t := s) hsame (.refl s w) rfl
      rw [rateTether_kept hchanged.shot (.inl (by rw [hshot]))] at hrule
      obtain ⟨hothers, hshot', hqueue, -, -⟩ := hchanged.owing s
      exact ⟨_, runOrder_done hd hrule, hothers, hshot', hqueue⟩

end

section
/-! PROOFS. SET SELECTION: the selection table over the UNDECIDED shots, one after the other in order of sequence number. Settles
O57. -/

namespace Sys2Proof.Machine

set_option Elab.async false

/-! ### One shot under the table (R152, R153, R43) -/

/-- R43, R153: a shot with record x that the table gives `sel` is released. -/
def tableReleases (x : Shot) (sel : Option SendWhat) : Bool :=
  sel.isNone && ({ x with tether := .notSelected } : Shot).releasable

/-- R153: the tether queue once a shot with record x has been put under a table that gives it `sel`. -/
def tableQueue (q : List TetherEntry) (w : Fin 64) (x : Shot) (sel : Option SendWhat) : List TetherEntry :=
  match sel with
  | none => q
  | some send => insertEntry q (joinedEntry w x (degrade x send) false)

/-- R151: what SET SELECTION does with one UNDECIDED shot. -/
def tableStep (s : State) (w : Fin 64) : State := releaseCheck (evaluateUndecided s w) w

/-- What `tableStep` makes of s, where the shot in window w has record x and the table gives it `sel`. -/
structure TableStep (s u : State) (w : Fin 64) (x : Shot) (sel : Option SendWhat) : Prop where
  rules : u.tether.rules = s.tether.rules
  others : ∀ v, v ≠ w → u.shot v = s.shot v ∧ u.mapsOf v = s.mapsOf v
  freed : tableReleases x sel = true → u.shot w = freeShot ∧ u.mapsOf w = emptyMaps
  kept : tableReleases x sel = false → u.mapsOf w = s.mapsOf w ∧
    (sel = none → u.shot w = { x with tether := .notSelected, sendWhat := none }) ∧
    ∀ send, sel = some send → u.shot w = joinedShot x (degrade x send)
  free : u.pool.free = s.pool.free ++ if tableReleases x sel then mappedGranules (s.mapsOf w) else []
  pool : tableReleases x sel = false → u.pool = s.pool
  queue : u.tether.queue = tableQueue s.tether.queue w x sel
  headKept : sel = none → u.tether.head = s.tether.head ∧ tetherHeadOf u = tetherHeadOf s
  headGiven : sel ≠ none → u.tether.head = tetherHeadOf u

/-- A shot that is QUEUED neither before nor after is not the head. -/
theorem tetherHeadOf_congr {s t : State} {w : Fin 64} (hq : t.tether.queue = s.tether.queue)
    (hothers : ∀ v, v ≠ w → t.shot v = s.shot v) (hs : (s.shot w).tether ≠ .queued) (ht : (t.shot w).tether ≠ .queued) :
    tetherHeadOf t = tetherHeadOf s := by
  have hready : (fun e : TetherEntry => e.ready && decide ((t.shot e.window).tether = .queued)) =
      fun e => e.ready && decide ((s.shot e.window).tether = .queued) := by
    funext e
    by_cases h : e.window = w
    · rw [h, decide_eq_false ht, decide_eq_false hs]
    · rw [hothers _ h]
  simp only [tetherHeadOf, hq, hready]
  refine Option.map_congr fun e he => ?_
  have hqueued := List.find?_some he
  have h : e.window ≠ w := by
    rintro h
    rw [h, decide_eq_false hs, Bool.and_false] at hqueued
    cases hqueued
  rw [hothers _ h]

theorem tableStep_waits {s : State} {w : Fin 64} (ht : (s.shot w).tether = .undecided) (hi : (s.shot w).inputsPresent = false) :
    tableStep s w = s := by
  rw [tableStep, evaluateUndecided_waits fun h => by rw [hi] at h; exact nomatch h.2.2]
  exact releaseCheck_kept fun _ => by simp [Shot.releasable, ht]

theorem tableStep_spec {s : State} {w : Fin 64} (hs : (s.shot w).state = .sealed) (ht : (s.shot w).tether = .undecided)
    (hi : (s.shot w).inputsPresent = true) : TableStep s (tableStep s w) w (s.shot w) (selected s (s.shot w)) := by
  rw [tableStep, evaluateUndecided_applies hs ht hi]
  cases hsel : selected s (s.shot w) with
  | none =>
    have hmirror := mirror_reported (s.setShot w { s.shot w with tether := .notSelected, sendWhat := none }) w [5]
    have hothers := hmirror.othersKept (.setShot s w _)
    have hshot := (hmirror.field fun u => u.shot w).trans (State.shot_setShot_same _ _ _)
    have htether : (mirror (s.setShot w { s.shot w with tether := .notSelected, sendWhat := none }) w [5]).tether = s.tether :=
      hmirror.field State.tether
    have hnot : (s.shot w).tether ≠ .queued := by rw [ht]; decide
    rw [evaluateShot_rejects hsel]
    by_cases hr : ({ s.shot w with tether := .notSelected } : Shot).releasable = true
    · have hfreed := hothers.freed (by rw [hshot]; exact hs) (by rw [hshot]; exact hr)
      have htether' : (releaseCheck (mirror (s.setShot w { s.shot w with tether := .notSelected, sendWhat := none }) w [5]) w).tether
          = s.tether := (releaseCheck_field _ w State.tether).trans htether
      have hrel : tableReleases (s.shot w) none = true := hr
      exact {
        rules := congrArg _ htether', others := hfreed.others, freed := fun _ => ⟨hfreed.shot, hfreed.maps⟩
        kept := fun h => nomatch h.symm.trans hrel
        free := by rw [hfreed.free, hrel, if_pos rfl]
        pool := fun h => nomatch h.symm.trans hrel
        queue := congrArg _ htether'
        headKept := fun _ => ⟨congrArg _ htether', tetherHeadOf_congr (congrArg _ htether') (fun v hv => (hfreed.others v hv).1) hnot
          (by rw [hfreed.shot]; decide)⟩
        headGiven := fun h => absurd rfl h }
    · have hrel : tableReleases (s.shot w) none = false := eq_false_of_ne_true hr
      rw [releaseCheck_kept fun _ => by rw [hshot]; exact eq_false_of_ne_true hr]
      exact {
        rules := congrArg _ htether, others := fun v hv => ⟨hothers.shots v hv, congrArg (·.get v) hothers.maps⟩
        freed := fun h => nomatch hrel.symm.trans h
        kept := fun _ => ⟨congrArg (·.get w) hothers.maps, fun _ => hshot, nofun⟩
        free := by rw [hothers.pool, hrel, if_neg (by decide), List.append_nil]
        pool := fun _ => hothers.pool
        queue := congrArg _ htether
        headKept := fun _ => ⟨congrArg _ htether, tetherHeadOf_congr (congrArg _ htether) hothers.shots hnot
          (by rw [hshot]; exact nofun)⟩
        headGiven := fun h => absurd rfl h }
  | some send =>
    have hjoined := joinQueue_reported s w (degrade (s.shot w) send) false
    rw [headSet_queueJoined] at hjoined
    obtain ⟨hothers, hshot, hqueue, hrules, hhead⟩ := hjoined.requeues (.refl s w) rfl
    rw [evaluateShot_joins hsel, releaseCheck_kept fun _ => by rw [hshot]; exact releasable_queued rfl]
    exact {
      rules := hrules, others := fun v hv => ⟨hothers.shots v hv, congrArg (·.get v) hothers.maps⟩, freed := nofun
      kept := fun _ => ⟨congrArg (·.get w) hothers.maps, nofun, fun send' h => by cases h; exact hshot⟩
      free := by rw [hothers.pool]; exact (List.append_nil _).symm
      pool := fun _ => hothers.pool, queue := hqueue, headKept := nofun, headGiven := fun _ => hhead }

/-! ### All of them, one after the other (R151) -/

/-- What putting the shots `ws` of s under the table, in this order, has made of it. -/
structure TableRun (s : State) (ws : List (Fin 64)) (u : State) : Prop where
  rules : u.tether.rules = s.tether.rules
  others : ∀ v, v ∉ ws → u.shot v = s.shot v ∧ u.mapsOf v = s.mapsOf v
  freed : ∀ w ∈ ws, tableReleases (s.shot w) (selected s (s.shot w)) = true → u.shot w = freeShot ∧ u.mapsOf w = emptyMaps
  kept : ∀ w ∈ ws, tableReleases (s.shot w) (selected s (s.shot w)) = false → u.mapsOf w = s.mapsOf w ∧
    (selected s (s.shot w) = none → u.shot w = { s.shot w with tether := .notSelected, sendWhat := none }) ∧
    ∀ send, selected s (s.shot w) = some send → u.shot w = joinedShot (s.shot w) (degrade (s.shot w) send)
  free : u.pool.free = s.pool.free ++
    (ws.filter fun w => tableReleases (s.shot w) (selected s (s.shot w))).flatMap fun w => mappedGranules (s.mapsOf w)
  pool : (∀ w ∈ ws, tableReleases (s.shot w) (selected s (s.shot w)) = false) → u.pool = s.pool
  queue : u.tether.queue = ws.foldl (fun q w => tableQueue q w (s.shot w) (selected s (s.shot w))) s.tether.queue
  headKept : (∀ w ∈ ws, selected s (s.shot w) = none) → u.tether.head = s.tether.head
  headGiven : (∃ w ∈ ws, selected s (s.shot w) ≠ none) → u.tether.head = tetherHeadOf u

theorem TableRun.nil (s : State) : TableRun s [] s where
  rules := rfl
  others _ _ := ⟨rfl, rfl⟩
  freed := nofun
  kept := nofun
  free := (List.append_nil _).symm
  pool _ := rfl
  queue := rfl
  headKept _ := rfl
  headGiven h := by obtain ⟨_, h, _⟩ := h; cases h

theorem TableRun.next {s t u : State} {ws : List (Fin 64)} {w : Fin 64} (h : TableRun s ws t) (hw : w ∉ ws)
    (k : TableStep t u w (s.shot w) (selected s (s.shot w))) : TableRun s (ws ++ [w]) u := by
  have hmaps : t.mapsOf w = s.mapsOf w := (h.others w hw).2
  have hne {v : Fin 64} (hv : v ∈ ws) : v ≠ w := fun e => hw (e ▸ hv)
  refine ⟨k.rules.trans h.rules, fun v hv => ?others, fun v hv hr => ?freed, fun v hv hr => ?kept, ?free, fun hr => ?pool, ?queue,
    fun hn => ?headKept, fun hg => ?headGiven⟩
  case others =>
    simp only [List.mem_append, List.mem_singleton, not_or] at hv
    obtain ⟨hshot, hm⟩ := k.others v hv.2
    obtain ⟨hshot', hm'⟩ := h.others v hv.1
    exact ⟨hshot.trans hshot', hm.trans hm'⟩
  case freed =>
    rcases List.mem_append.mp hv with hv | hv
    · obtain ⟨hshot, hm⟩ := k.others v (hne hv)
      rw [hshot, hm]
      exact h.freed v hv hr
    · obtain rfl := List.mem_singleton.mp hv
      exact k.freed hr
  case kept =>
    rcases List.mem_append.mp hv with hv | hv
    · obtain ⟨hshot, hm⟩ := k.others v (hne hv)
      rw [hshot, hm]
      exact h.kept v hv hr
    · obtain rfl := List.mem_singleton.mp hv
      rw [← hmaps]
      exact k.kept hr
  case free =>
    rw [k.free, h.free, hmaps, List.filter_append, List.flatMap_append, List.append_assoc]
    congr 2
    cases hr : tableReleases (s.shot w) (selected s (s.shot w)) <;> simp [hr]
  case pool =>
    exact (k.pool (hr w (by simp))).trans (h.pool fun v hv => hr v (by simp [hv]))
  case queue =>
    rw [k.queue, h.queue, List.foldl_append]
    rfl
  case headKept =>
    exact (k.headKept (hn w (by simp))).1.trans (h.headKept fun v hv => hn v (by simp [hv]))
  case headGiven =>
    by_cases hsel : selected s (s.shot w) = none
    · obtain ⟨v, hv, hgiven⟩ := hg
      have hv : v ∈ ws := by
        rcases List.mem_append.mp hv with hv | hv
        · exact hv
        · obtain rfl := List.mem_singleton.mp hv
          exact absurd hsel hgiven
      obtain ⟨hhead, hof⟩ := k.headKept hsel
      rw [hhead, hof]
      exact h.headGiven ⟨v, hv, hgiven⟩
    · exact k.headGiven hsel

/-- R151: the shots without their inputs are passed over. -/
theorem tableRun {s : State} {vs : List (Fin 64)} (hnodup : vs.Nodup)
    (hvs : ∀ w ∈ vs, (s.shot w).state = .sealed ∧ (s.shot w).tether = .undecided) :
    TableRun s (vs.filter fun w => (s.shot w).inputsPresent) (vs.foldl tableStep s) := by
  induction vs using List.reverseRecOn with
  | nil => exact .nil s
  | append_singleton vs w ih =>
    have hfresh : w ∉ vs := fun h => by
      rw [List.nodup_append] at hnodup
      exact hnodup.2.2 w h w (List.mem_singleton.mpr rfl) rfl
    have hrun := ih (List.nodup_append.mp hnodup).1 fun v hv => hvs v (by simp [hv])
    have hshot : (vs.foldl tableStep s).shot w = s.shot w := (hrun.others w fun h => hfresh (List.mem_of_mem_filter h)).1
    obtain ⟨hs, ht⟩ := hvs w (by simp)
    rw [List.foldl_append, List.filter_append]
    show TableRun s _ (tableStep (vs.foldl tableStep s) w)
    cases hi : (s.shot w).inputsPresent with
    | false =>
      rw [tableStep_waits (by rw [hshot]; exact ht) (by rw [hshot]; exact hi)]
      simpa [hi] using hrun
    | true =>
      have hstep := tableStep_spec (s := vs.foldl tableStep s) (w := w) (by rw [hshot]; exact hs) (by rw [hshot]; exact ht)
        (by rw [hshot]; exact hi)
      rw [hshot, selected_congr hrun.rules] at hstep
      simpa [hi] using hrun.next (fun h => hfresh (List.mem_of_mem_filter h)) hstep

theorem mem_undecidedShots {s : State} {w : Fin 64} :
    w ∈ undecidedShots s ↔ (s.shot w).state = .sealed ∧ (s.shot w).tether = .undecided := by
  simp [undecidedShots, List.mem_insertionSort]

theorem undecidedShots_nodup (s : State) : (undecidedShots s).Nodup :=
  (List.perm_insertionSort _ _).nodup_iff.mpr ((List.nodup_finRange 64).filter _)

theorem undecidedShots_sorted (s : State) : (undecidedShots s).Pairwise fun a b => (s.shot a).seq ≤ (s.shot b).seq := by
  have htotal : Std.Total fun a b : Fin 64 => (s.shot a).seq ≤ (s.shot b).seq := ⟨fun a b => Nat.le_total _ _⟩
  have htrans : IsTrans (Fin 64) fun a b => (s.shot a).seq ≤ (s.shot b).seq := ⟨fun a b c => Nat.le_trans⟩
  exact List.pairwise_insertionSort _ _

/-- R151: in ascending order of sequence number there is one way to take the shots. -/
theorem undecidedShots_filter {s : State} {ws : List (Fin 64)} (hsorted : ws.Pairwise fun v w => (s.shot v).seq < (s.shot w).seq)
    (hws : ∀ w, w ∈ ws ↔ (s.shot w).state = .sealed ∧ (s.shot w).tether = .undecided ∧ (s.shot w).inputsPresent = true) :
    ((undecidedShots s).filter fun w => (s.shot w).inputsPresent) = ws := by
  have hmem (w : Fin 64) : (w ∈ (undecidedShots s).filter fun w => (s.shot w).inputsPresent) ↔ w ∈ ws := by
    rw [List.mem_filter, mem_undecidedShots, hws, and_assoc]
  have hdistinct : (ws.map fun w => (s.shot w).seq).Nodup := (List.pairwise_map.mpr hsorted).imp Nat.ne_of_lt
  have hperm := (List.perm_ext_iff_of_nodup ((undecidedShots_nodup s).filter _) hdistinct.of_map).mpr hmem
  refine hperm.eq_of_pairwise (fun a b ha hb h h' => ?_) ((undecidedShots_sorted s).filter _) (hsorted.imp Nat.le_of_lt)
  exact List.inj_on_of_nodup_map hdistinct ((hmem a).mp ha) hb (Nat.le_antisymm h h')

/-- The state under another selection table. -/
def State.withRules (s : State) (rules : Vector SelectionRule 16) : State := { s with tether := { s.tether with rules := rules } }

theorem setSelectionRule_invalid {o : OrderRecord} {img : List Byte} (s : State) (h : decodeRules img = none) :
    setSelectionRule o img s = (s, .badParam) := by
  rw [setSelectionRule, h]

theorem setSelectionRule_valid {o : OrderRecord} {img : List Byte} (s : State) {rules : Vector SelectionRule 16}
    (h : decodeRules img = some rules) :
    setSelectionRule o img s = ((undecidedShots s).foldl tableStep (s.withRules rules), .done) := by
  rw [setSelectionRule, h]
  rfl

end Sys2Proof.Machine

open Sys2Proof Sys2Proof.Machine

/-- Settles O57. -/
theorem selectionTableReplaced : Obligations.SelectionTableReplaced := by
  intro s o img hd
  refine ⟨fun h => runOrder_unchanged hd (setSelectionRule_invalid s h), fun rules t hrules ht => ?_⟩
  obtain rfl : t = s.withRules rules := ht
  have hrun := tableRun (s := s.withRules rules) (undecidedShots_nodup s)
    fun w hw => mem_undecidedShots.mp hw
  have hexec := runOrder_done hd (setSelectionRule_valid (o := o) s hrules)
  refine ⟨fun hnone => ?_, fun ws released hsorted hws hreleased => ?_⟩
  · have hwaits : (undecidedShots s).foldl tableStep (s.withRules rules) = s.withRules rules := by
      have hall : ∀ w ∈ undecidedShots s, tableStep (s.withRules rules) w = s.withRules rules := fun w hw => by
        obtain ⟨hs, hu⟩ := mem_undecidedShots.mp hw
        exact tableStep_waits hu (hnone w hs hu)
      exact List.foldlRecOn (motive := fun u => u = _) _ _ rfl fun u hu w hw => by rw [hu, hall w hw]
    exact runOrder_work_kept hd ((setSelectionRule_valid (o := o) s hrules).trans (congrArg (·, OrderStatus.done) hwaits)) rfl
  · have hfilter := undecidedShots_filter hsorted hws
    have hrel : released = fun w => tableReleases (s.shot w) (selected (s.withRules rules) (s.shot w)) := funext hreleased
    subst hrel
    rw [show ((undecidedShots s).filter fun w =>
      ((s.withRules rules).shot w).inputsPresent) = ws from hfilter] at hrun
    refine ⟨_, hexec, hrun.rules, hrun.others, hrun.freed, hrun.kept, hrun.free, hrun.pool, ?_, hrun.headKept, fun hsome => ?_⟩
    · refine hrun.queue.trans (congrArg (fun f => ws.foldl f s.tether.queue) (funext fun q => funext fun w => ?_))
      show tableQueue q w (s.shot w) (selected (s.withRules rules) (s.shot w)) = _
      cases selected (s.withRules rules) (s.shot w) <;> rfl
    · obtain ⟨w, hw, hsel⟩ := hsome
      exact (hrun.headGiven ⟨w, hw, Option.isSome_iff_ne_none.mp hsel⟩).trans (owing_field _ s tetherHeadOf).symm

end

section
/-! PROOFS. Orders that replace settings: SET PROFILE, SET POOL, LOAD TONE, SET FOCUS, FOCUS START and SET NOTICE. Settles O35, O37, O43,
O44, O51 and O60. -/

namespace Sys2Proof.Machine

set_option Elab.async false

/-! ### Profiles and the pool (R20, R21, R27) -/

/-- An update of blocks that are not reported through stays on top of what has been reported. -/
theorem OnlyReports.map {ls : List OwnLine} {n : Nat} {s t : State} (h : OnlyReports ls n s t) (g : State → State)
    (comm : ∀ (u : State) (m : Memory) (p : MemoryPort) (n : NoticeUnit),
      g { u with mem := m, port := p, notice := n } = { g u with mem := m, port := p, notice := n } := by intros; rfl)
    (caSel : ∀ u : State, (g u).caSel = u.caSel := by intros; rfl) (mem : ∀ u : State, (g u).mem = u.mem := by intros; rfl)
    (port : ∀ u : State, (g u).port = u.port := by intros; rfl) (notice : ∀ u : State, (g u).notice = u.notice := by intros; rfl) :
    OnlyReports ls n (g s) (g t) := by
  refine h.rebase ?_ (caSel s) (mem s) (port s) (notice s) (mem t) (port t) (notice t)
  have e := congrArg g h.blocks
  rw [comm] at e
  rw [mem, port, notice]
  exact e

theorem setProfileRule_invalid {o : OrderRecord} {img : List Byte} (s : State)
    (h : 4 ≤ field o.params 0 1 ∨ decodeProfile img = none) : setProfileRule o img s = (s, .badParam) := by
  unfold setProfileRule
  dsimp only
  split
  · next hlt => rw [h.resolve_left (Nat.not_le.mpr hlt)]
  · rfl

/-- R27: a slot of the Shot Table replaced. -/
def withProfile (s : State) (n : Fin 4) (p : Profile) : State :=
  { s with table := { s.table with profiles := s.table.profiles.set n.val (some p) } }

theorem setProfileRule_valid {o : OrderRecord} {img : List Byte} {n : Fin 4} {p : Profile} (s : State)
    (hn : field o.params 0 1 = n.val) (hp : decodeProfile img = some p) :
    setProfileRule o img s = (if s.table.active = n then refreshCursor (withProfile s n p) else withProfile s n p, .done) := by
  have hlt : field o.params 0 1 < 4 := hn ▸ n.isLt
  obtain rfl : n = ⟨field o.params 0 1, hlt⟩ := Fin.ext hn.symm
  unfold setProfileRule
  dsimp only
  rw [dif_pos hlt, hp]
  simp only [Fin.ext_iff]
  rfl

/-- R19: what evaluating the armed flag makes of it. -/
def armedAfter (s : State) : Bool :=
  if s.pool.armed then decide (s.pool.low ≤ available s) else decide (s.pool.high ≤ available s)

theorem evalArmed_reports (s : State) : OnlyReports [.cursor 3] 1 { s with pool := { s.pool with armed := armedAfter s } } (evalArmed s) := by
  unfold evalArmed armedAfter
  by_cases ha : s.pool.armed = true
  · by_cases hl : available s < s.pool.low
    · simp only [ha, hl, decide_true, Bool.and_self, if_true, decide_eq_false (Nat.not_le.mpr hl)]
      exact hand_reports _ _ rfl
    · have hsame : { s with pool := { s.pool with armed := true } } = s := by rw [← ha]
      simp only [ha, hl, decide_false, Bool.and_false, Bool.false_eq_true, if_false, Bool.not_true, Bool.false_and, if_true,
        decide_eq_true (Nat.le_of_not_lt hl), hsame]
      exact (OnlyReports.refl s).mono (by simp) (by omega)
  · have ha : s.pool.armed = false := eq_false_of_ne_true ha
    by_cases hh : s.pool.high ≤ available s
    · simp only [ha, hh, Bool.false_and, Bool.false_eq_true, if_false, Bool.not_false, decide_true, Bool.and_self, if_true]
      exact (OnlyReports.refl _).mono (by simp) (by omega)
    · have hsame : { s with pool := { s.pool with armed := false } } = s := by rw [← ha]
      simp only [ha, hh, Bool.false_and, Bool.false_eq_true, if_false, Bool.not_false, decide_false, Bool.and_false, hsame]
      exact (OnlyReports.refl s).mono (by simp) (by omega)

theorem publishPool_reports (r s : State) : OnlyReports [.cursor 2] 0 s (publishPool r s) := by
  unfold publishPool
  split
  · exact (OnlyReports.refl s).mono (by simp) (Nat.le_refl 0)
  · exact publish_reports s 2

/-- R20, R21: the pool that SET POOL makes. -/
def pooled (s : State) (first count low high : Nat) : State :=
  { s with pool := { s.pool with
    first := first, size := count, free := (List.range count).map fun i => first + i, low := low, high := high } }

/-- R20: the checks of SET POOL, in their order. -/
theorem setPoolRule_eq (o : OrderRecord) (img : List Byte) (s : State) :
    setPoolRule o img s =
      if poolParamsValid s (field o.params 0 2) (field o.params 2 2) (field o.params 4 2) (field o.params 6 2) = false then (s, .badParam)
      else if (s.shots.toList.any fun x => x.state ≠ .free) = true then (s, .state)
      else (refreshCursor (evalArmed (publishPool s
        (pooled s (field o.params 0 2) (field o.params 2 2) (field o.params 4 2) (field o.params 6 2)))), .done) := by
  unfold setPoolRule
  simp only [Bool.not_eq_true']
  rfl

theorem exec_setPool {s : State} {o : OrderRecord} {img : List Byte} (hd : dispatchedOrder s .setPool = some (o, img))
    (hm : marksOnly o = false) :
    exec .setPool s = .next (finishOrder (setPoolRule o img s).1 o (setPoolRule o img s).2) := by
  show execSetPool s = _
  rw [execSetPool, hd]
  simp only [hm, Bool.false_eq_true, if_false]

theorem available_pooled {s : State} (h : ∀ w, s.shot w = freeShot) (first count low high : Nat) :
    available (pooled s first count low high) = count := by
  have hnone : totalReservation (pooled s first count low high) = 0 := by
    refine List.sum_eq_zero fun n hn => ?_
    obtain ⟨x, hx, rfl⟩ := List.mem_map.mp hn
    obtain ⟨i, hi, rfl⟩ := List.mem_iff_getElem.mp hx
    have hfree := h ⟨i, by simpa using hi⟩
    simp only [Vector.getElem_toList]
    exact congrArg Shot.reservation hfree
  rw [available, hnone, freeCount]
  simp [pooled]

/-! ### Tone tables (R116) -/

theorem loadToneRule_noTable {o : OrderRecord} (img : List Byte) (s : State) (h : 2 ≤ field o.params 0 1) :
    loadToneRule o img s = (s, .badParam) :=
  dif_neg (Nat.not_lt.mpr h)

theorem loadToneRule_table {o : OrderRecord} {k : Fin 2} (img : List Byte) (s : State) (h : field o.params 0 1 = k.val) :
    loadToneRule o img s =
      if toneInUse s k.val then (s, .busy)
      else (s.setEngine { s.engine with tones := s.engine.tones.set k.val (decodeTone img) }, .done) := by
  have hlt : field o.params 0 1 < 2 := h ▸ k.isLt
  obtain rfl : k = ⟨field o.params 0 1, hlt⟩ := Fin.ext h.symm
  exact dif_pos hlt

/-! ### The focus setup (R75, R79, R80) -/

theorem setFocusRule_undecoded {o : OrderRecord} {img : List Byte} (s : State) (h : decodeFocus img = none) :
    setFocusRule o img s = (s, .badParam) := by
  rw [setFocusRule, h]

theorem setFocusRule_decoded {o : OrderRecord} {img : List Byte} {f : FocusSetup} (s : State) (h : decodeFocus img = some f) :
    setFocusRule o img s = if buffersFit s f then (acceptFocus s f, .done) else (s, .badParam) := by
  rw [setFocusRule, h]

/-- The state with other banks, no followed view and another count of skipped views. -/
def viewsCleared (s : State) (a b : Bank) (skipped : Nat) : State :=
  { s with
    focus := { s.focus with bankA := a, bankB := b }
    view := { s.view with followed := none, skipped := skipped } }

theorem dropView_eq (s : State) : ∃ a b n, dropView s = viewsCleared s a b n := by
  unfold dropView
  split
  · next h => exact ⟨s.focus.bankA, s.focus.bankB, s.view.skipped, by rw [viewsCleared, ← h]⟩
  · next v _ => cases h : v.bank <;> exact ⟨_, _, _, rfl⟩

theorem clearViews_reported (s : State) : ∃ a b n, Reported (viewsCleared s a b n) (clearViews s) := by
  obtain ⟨a, b, n, h⟩ := dropView_eq s
  have hbank (t : State) (c : Prop) [Decidable c] (i : BankId) (ht : ∃ a b n, t = viewsCleared s a b n) :
      ∃ a b n, (if c then raiseSkipped (t.setBank i idleBank) 1 else t) = viewsCleared s a b n := by
    obtain ⟨a, b, n, rfl⟩ := ht
    split
    · cases i <;> exact ⟨_, _, _, rfl⟩
    · exact ⟨_, _, _, rfl⟩
  unfold clearViews
  dsimp only
  generalize ha : (if (dropView s).focus.bankA.state = .full then raiseSkipped ((dropView s).setBank .a idleBank) 1 else dropView s) = t
  generalize hb : (if t.focus.bankB.state = .full then raiseSkipped (t.setBank .b idleBank) 1 else t) = u
  obtain ⟨a, b, n, rfl⟩ : ∃ a b n, u = viewsCleared s a b n := by
    rw [← hb]
    refine hbank t _ .b ?_
    rw [← ha]
    exact hbank _ _ .a ⟨a, b, n, h⟩
  exact ⟨a, b, n, .ite (fun _ => .refl _) fun _ => publish_reported _ 8⟩

/-- R80: an accepted setup, before a grid change has reset the zones. -/
def setupReplaced (s : State) (f : FocusSetup) : State :=
  { s with
    focus := { s.focus with setup := some f }
    view := { s.view with lastGridLine := lastGridLineOf f } }

/-- R80, R93: the zone records, the primary zone and the banks' marks at a grid change. -/
def zonesReset (s : State) : State :=
  { s with focus := { s.focus with
    zones := .replicate 63 noDataZone
    primary := none
    bankA := s.focus.bankA.noteGridChange
    bankB := s.focus.bankB.noteGridChange } }

theorem acceptFocus_reported (s : State) (f : FocusSetup) : ∃ a b n,
    Reported (if gridChange s.focus.setup f then zonesReset (setupReplaced (viewsCleared s a b n) f)
      else setupReplaced (viewsCleared s a b n) f) (acceptFocus s f) := by
  obtain ⟨a, b, n, h⟩ := clearViews_reported s
  refine ⟨a, b, n, ?_⟩
  unfold acceptFocus
  dsimp only
  split
  · have hreset := h.map fun u => zonesReset (setupReplaced u f)
    exact hreset.trans (emitLines_reports _ OwnLine.zone (List.finRange 63)).reported
  · exact h.map fun u => setupReplaced u f

/-! ### Following (R94) -/

/-- R94: the Focus Unit that FOCUS START makes. -/
def followStarted (s : State) (o : OrderRecord) (m : FollowMode) : FocusUnit :=
  { (if flagAt o.params 1 then clearPrimary s.focus else s.focus) with
    mode := m, candidates := BitVec.ofNat 64 (field o.params 2 8), follow := if m = .off then .idle else .following }

theorem followModeOf_none {n : Nat} (h : 2 < n) : followModeOf n = none := by
  unfold followModeOf
  split
  · omega
  · omega
  · omega
  · rfl

theorem focusStartRule_refused {o : OrderRecord} (img : List Byte) (s : State)
    (h : 2 < field o.params 0 1 ∨ (BitVec.ofNat 64 (field o.params 2 8)).getLsbD 63 = true) :
    focusStartRule o img s = (s, .badParam) := by
  unfold focusStartRule
  rcases h with h | h
  · rw [followModeOf_none h]
  · split
    · rfl
    · exact if_pos h

theorem focusStartRule_taken {o : OrderRecord} {m : FollowMode} (img : List Byte) (s : State)
    (hm : followModeOf (field o.params 0 1) = some m) (hset : (BitVec.ofNat 64 (field o.params 2 8)).getLsbD 63 = false) :
    focusStartRule o img s = ({ s with focus := followStarted s o m }, .done) := by
  unfold focusStartRule
  rw [hm]
  exact if_neg (by rw [hset]; decide)

/-! ### The attention line (R174 to R176) -/

theorem evaluateAttention_blocks (s : State) : { evaluateAttention s with notice := s.notice } = s := by
  obtain ⟨c, l, p, h⟩ := evaluateAttention_cases s
  rw [h]

theorem evaluateAttention_notice (s : State) :
    { (evaluateAttention s).notice with standing := s.notice.standing, line := s.notice.line, pulse := s.notice.pulse } = s.notice := by
  obtain ⟨c, l, p, h⟩ := evaluateAttention_cases s
  rw [h]

theorem evaluateAttention_condition (s : State) : attentionCondition (evaluateAttention s) = attentionCondition s := by
  obtain ⟨c, l, p, h⟩ := evaluateAttention_cases s
  rw [h]
  rfl

/-- R176: the Notice Unit with its four settings replaced, before the condition is evaluated. -/
def noticeSet (s : State) (n t : Nat) (m : AttentionMode) (pulse : Nat) : State :=
  { s with notice := { s.notice with
    batch := n
    age := t
    mode := m
    pulseLength := pulse
    standing := decide (s.notice.mode = m) && s.notice.standing
    line := decide (s.notice.mode = m) && s.notice.line
    pulse := if s.notice.mode = m then s.notice.pulse else .stopped } }

theorem setNotice_eq (s : State) (n t : Nat) (m : AttentionMode) (pulse : Nat) :
    setNotice s n t m pulse = evaluateAttention (noticeSet s n t m pulse) := by
  unfold setNotice noticeSet
  by_cases h : s.notice.mode = m <;> simp [h]

theorem attentionModeOf_none {n : Nat} (h : 1 < n) : attentionModeOf n = none := by
  unfold attentionModeOf
  split
  · omega
  · omega
  · rfl

theorem setNoticeRule_refused {o : OrderRecord} (img : List Byte) (s : State)
    (h : field o.params 0 1 = 0 ∨ 64 < field o.params 0 1 ∨ field o.params 4 1 = 0 ∨ 1 < field o.params 3 1) :
    setNoticeRule o img s = (s, .badParam) := by
  unfold setNoticeRule
  rcases h with h | h | h | h
  · dsimp only
    split
    · rfl
    · exact if_pos (.inl h)
  · dsimp only
    split
    · rfl
    · exact if_pos (.inr (.inl h))
  · dsimp only
    split
    · rfl
    · exact if_pos (.inr (.inr h))
  · rw [attentionModeOf_none h]

theorem setNoticeRule_taken {o : OrderRecord} {m : AttentionMode} (img : List Byte) (s : State)
    (hm : attentionModeOf (field o.params 3 1) = some m) (h1 : 1 ≤ field o.params 0 1) (h64 : field o.params 0 1 ≤ 64)
    (hp : 1 ≤ field o.params 4 1) :
    setNoticeRule o img s =
      (evaluateAttention (noticeSet s (field o.params 0 1) (field o.params 1 2) m (field o.params 4 1)), .done) := by
  unfold setNoticeRule
  dsimp only
  rw [hm, ← setNotice_eq]
  exact if_neg (by omega)

/-- R174: the condition stands once the oldest notice has reached its age. -/
theorem attentionCondition_aged {s : State} {m : NoticeMark} {more : List NoticeMark} (h : s.notice.unconsumed = m :: more)
    (hage : 0 < s.notice.age) (hnow : m.time + s.notice.age ≤ s.now) : attentionCondition s = true := by
  simp [attentionCondition, h, hage, hnow]

theorem exec_noticeAgeExpiry {s : State} {m : NoticeMark} {more : List NoticeMark} (hphase : s.phase = .started)
    (h : s.notice.unconsumed = m :: more) (hage : 0 < s.notice.age) :
    exec .noticeAgeExpiry s = .next (evaluateAttention (s.advanceTo (m.time + s.notice.age))) := by
  show execNoticeAgeExpiry s = _
  simp only [execNoticeAgeExpiry, ageTime, h, hage, hphase, if_true]

end Sys2Proof.Machine

open Sys2Proof Sys2Proof.Machine

/-- Settles O35. -/
theorem setPoolReplacesPool : Obligations.SetPoolReplacesPool := by
  intro s o img first count low high hd hm hfirst hcount hlow hhigh
  have hrule := setPoolRule_eq o img s
  rw [← hfirst, ← hcount, ← hlow, ← hhigh] at hrule
  rw [exec_setPool hd hm, hrule]
  refine ⟨fun h => by rw [if_pos h], fun h hbusy => ?_, fun h hfree => ?_⟩
  · have hany : (s.shots.toList.any fun x => x.state ≠ .free) = true := by
      by_contra hnone
      obtain ⟨w, hw⟩ := hbusy
      exact hw (allFree_iff.mp (eq_false_of_ne_true hnone) w)
    rw [if_neg (by rw [h]; decide), if_pos hany]
  · have hnone : (s.shots.toList.any fun x => x.state ≠ .free) = false := allFree_iff.mpr fun w => by rw [hfree w]; rfl
    rw [if_neg (by rw [h]; decide), if_neg (by rw [hnone]; decide)]
    have hpublished := publishPool_reports s (pooled s first count low high)
    have havailable : available (publishPool s (pooled s first count low high)) = count :=
      (hpublished.reported.field available).trans (available_pooled hfree first count low high)
    have hpool : (publishPool s (pooled s first count low high)).pool = (pooled s first count low high).pool :=
      hpublished.reported.field State.pool
    have harmed : armedAfter (publishPool s (pooled s first count low high)) =
        if s.pool.armed then decide (low ≤ count) else decide (high ≤ count) := by
      rw [armedAfter, havailable, hpool]
      rfl
    have hevaluated := evalArmed_reports (publishPool s (pooled s first count low high))
    rw [harmed] at hevaluated
    have hcursor := refreshCursor_reports (evalArmed (publishPool s (pooled s first count low high)))
    generalize hE : evalArmed (publishPool s (pooled s first count low high)) = E at hevaluated hcursor
    generalize (if s.pool.armed then decide (low ≤ count) else decide (high ≤ count)) = a at hevaluated
    have hall := ((hpublished.map fun u => cursorAt { u with pool := { u.pool with armed := a } } (captureCursorOf E)
      (admissibleOf E (captureCursorOf E))).trans
      (hevaluated.map fun u => cursorAt u (captureCursorOf E) (admissibleOf E (captureCursorOf E)))).trans hcursor
    obtain ⟨-, hc, hf⟩ := hcursor.cursor_fields
    have hpool' := hall.reported.field State.pool
    have htable := hall.reported.field State.table
    refine ⟨refreshCursor E, rfl, ?_⟩
    rw [hpool']
    refine ⟨rfl, rfl, rfl, rfl, rfl, rfl, hf, hc, ?_⟩
    rw [htable]
    exact hall

/-- Settles O37. -/
theorem setProfileReplacesSlot : Obligations.SetProfileReplacesSlot := by
  intro s o img hd
  refine ⟨fun h => runOrder_unchanged hd (setProfileRule_invalid s h), fun n p hn hp => ?_⟩
  have hrule := setProfileRule_valid (img := img) (p := p) s hn hp
  have hslot : (s.table.profiles.set n.val (some p)).get n = some p := by simp [Vector.get_eq_getElem]
  have hothers : ∀ m, m ≠ n → (s.table.profiles.set n.val (some p)).get m = s.table.profiles.get m := fun m hm => by
    rw [Vector.get_eq_getElem, Vector.get_eq_getElem, Vector.getElem_set_ne]
    exact fun h => hm (Fin.ext h.symm)
  by_cases ha : s.table.active = n
  · rw [if_pos ha] at hrule
    have hreports := (refreshCursor_reports (withProfile s n p)).owing (u := s)
    obtain ⟨-, hcursor, hadmissible⟩ := hreports.cursor_fields
    have htable := hreports.ownWork.field State.table
    refine ⟨_, runOrder_done hd hrule, ?_, ?_, fun _ => ⟨hcursor, hadmissible⟩, fun h => absurd ha h, ?_⟩
    · rw [htable]
      exact hslot
    · rw [htable]
      exact hothers
    · rw [htable]
      exact hreports
  · rw [if_neg ha] at hrule
    refine ⟨_, runOrder_work_kept hd hrule rfl, hslot, hothers, fun h => absurd h ha, fun _ => ⟨rfl, rfl⟩, ?_⟩
    exact (OnlyReports.refl _).mono (by simp) (Nat.le_refl 0)

/-- Settles O43. -/
theorem setFocusReplacesSetup : Obligations.SetFocusReplacesSetup := by
  intro s o img hd
  refine ⟨fun h => runOrder_unchanged hd (setFocusRule_undecoded s h), fun f hf => ?_⟩
  have hrule := setFocusRule_decoded (o := o) s hf
  refine ⟨fun h => runOrder_unchanged hd (by rw [hrule, if_neg (by rw [h]; decide)]), fun h => ?_⟩
  rw [if_pos h] at hrule
  obtain ⟨a, b, n, hreported⟩ := acceptFocus_reported s f
  have hfocus := hreported.field State.focus
  have hview := hreported.field State.view
  refine ⟨_, runOrder_done hd hrule, ?_⟩
  have hshots := hreported.field State.shots
  have htaps := hreported.field State.taps
  have hpool := hreported.field State.pool
  have hlens := hreported.field State.lens
  show (acceptFocus s f).focus.setup = _ ∧ (acceptFocus s f).view.followed = _ ∧ (acceptFocus s f).view.lastGridLine = _ ∧
    (acceptFocus s f).view.sequence = _ ∧ (acceptFocus s f).focus.mode = _ ∧ (acceptFocus s f).focus.follow = _ ∧
    (acceptFocus s f).focus.candidates = _ ∧ (acceptFocus s f).shots = _ ∧ (acceptFocus s f).taps = _ ∧
    (acceptFocus s f).pool = _ ∧ (acceptFocus s f).lens = _ ∧
    (_ → (acceptFocus s f).focus.primary = _ ∧ ∀ z, (acceptFocus s f).focus.zones.get z = _) ∧
    (_ → (acceptFocus s f).focus.primary = _ ∧ (acceptFocus s f).focus.zones = _)
  rw [hfocus, hview, hshots, htaps, hpool, hlens]
  cases hgrid : gridChange s.focus.setup f
  · exact ⟨rfl, rfl, rfl, rfl, rfl, rfl, rfl, rfl, rfl, rfl, rfl, nofun, fun _ => ⟨rfl, rfl⟩⟩
  · refine ⟨rfl, rfl, rfl, rfl, rfl, rfl, rfl, rfl, rfl, rfl, rfl, fun _ => ⟨rfl, fun z => ?_⟩, nofun⟩
    exact Vector.getElem_replicate _

/-- Settles O44. -/
theorem focusStartSetsFollowing : Obligations.FocusStartSetsFollowing := by
  intro s o img hd
  refine ⟨fun h => runOrder_unchanged hd (focusStartRule_refused img s h), fun m hm hset => ?_⟩
  refine ⟨_, runOrder_work_kept hd (focusStartRule_taken img s hm hset) rfl, rfl, rfl, rfl, ?_⟩
  unfold followStarted
  cases flagAt o.params 1
  · exact ⟨rfl, rfl, rfl, rfl, nofun, fun _ => ⟨rfl, rfl⟩⟩
  · exact ⟨rfl, rfl, rfl, rfl, fun _ => ⟨rfl, rfl⟩, nofun⟩

/-- Settles O51. -/
theorem loadToneReplacesTable : Obligations.LoadToneReplacesTable := by
  intro s o img hd
  refine ⟨fun h => runOrder_unchanged hd (loadToneRule_noTable img s h), fun k hk => ?_⟩
  have hrule := loadToneRule_table img s hk
  refine ⟨fun h => runOrder_unchanged hd (by rw [hrule, if_pos h]), fun h => ?_⟩
  rw [if_neg (by rw [h]; decide)] at hrule
  refine ⟨_, runOrder_work_kept hd hrule rfl, rfl, rfl, fun i => ?_, fun j hj => ?_⟩
  · simp [Vector.get_eq_getElem, decodeTone]
  · simp only [State.setEngine, Vector.get_eq_getElem]
    exact Vector.getElem_set_ne _ _ fun h => hj (Fin.ext h.symm)

/-- Settles O60. -/
theorem attentionFollowsSettings : Obligations.AttentionFollowsSettings := by
  intro s
  refine ⟨fun o img hd => ⟨fun h => runOrder_unchanged hd (setNoticeRule_refused img s h), fun m hm h1 h64 hp => ?_⟩,
    fun m more hphase hun hage => ?_, fun d hd => ?_⟩
  · have hblocks := evaluateAttention_blocks (noticeSet s (field o.params 0 1) (field o.params 1 2) m (field o.params 4 1))
    have hnotice := evaluateAttention_notice (noticeSet s (field o.params 0 1) (field o.params 1 2) m (field o.params 4 1))
    have heval := evaluateAttention_evaluated (noticeSet s (field o.params 0 1) (field o.params 1 2) m (field o.params 4 1))
    refine ⟨_, runOrder_work_kept hd (setNoticeRule_taken img s hm h1 h64 hp)
        (congrArg MemoryPort.work (evaluateAttention_port _)),
      congrArg NoticeUnit.batch hnotice, congrArg NoticeUnit.age hnotice, congrArg NoticeUnit.mode hnotice,
      congrArg NoticeUnit.pulseLength hnotice, ?_, ?_, ?_, ?_⟩
    · rw [evaluateAttention_condition]
      exact ⟨heval.standing, heval.level, heval.rises, heval.keeps⟩
    · have e := congrArg NoticeUnit.unconsumed hnotice
      exact e
    · have e := congrArg NoticeUnit.writeIndex hnotice
      exact e
    · have e := congrArg (fun u : State => { u with notice := s.notice }) hblocks
      exact e
  · have heval := evaluateAttention_evaluated (s.advanceTo (m.time + s.notice.age))
    rw [attentionCondition_aged (s := s.advanceTo (m.time + s.notice.age)) hun hage (Nat.le_max_right _ _)] at heval
    have hblocks := evaluateAttention_blocks (s.advanceTo (m.time + s.notice.age))
    have hnow : (evaluateAttention (s.advanceTo (m.time + s.notice.age))).now = max s.now (m.time + s.notice.age) :=
      congrArg State.now hblocks
    refine ⟨_, exec_noticeAgeExpiry hphase hun hage, ?_, evaluateAttention_notice _, hnow, ?_⟩
    · rw [hnow]
      exact heval
    · have e := congrArg (fun u : State => { u with now := s.now }) hblocks
      exact e
  · show execAttentionPulseEnd s = _
    rw [execAttentionPulseEnd, hd]
    rfl

end

section
/-! PROOFS. The bounds of two arithmetic rules: the measurement of a zone and the tone table. Settles O46 and O55. -/

namespace Sys2Proof.Machine

set_option Elab.async false

/-! ### The measurement (R84, R86) -/

theorem mem_shifts {n : Nat} {d : Int} : d ∈ shifts n ↔ d.natAbs ≤ n := by
  simp only [shifts, List.mem_cons, List.mem_flatMap, List.bind_eq_flatMap, List.pure_def, List.mem_range, List.not_mem_nil, or_false]
  constructor
  · rintro (rfl | ⟨_, ⟨i, hi, rfl⟩, rfl | rfl⟩) <;> omega
  · intro h
    by_cases h0 : d = 0
    · exact .inl h0
    · exact .inr ⟨_, ⟨d.natAbs - 1, by omega, rfl⟩, by omega⟩

/-- A fold that keeps the better of two ends with one of its candidates, and with none better. -/
theorem foldl_best {α : Type} (f : α → Nat) (l : List α) (b : α) :
    (l.foldl (fun best d => if f d < f best then d else best) b ∈ b :: l) ∧
      ∀ d ∈ b :: l, f (l.foldl (fun best d => if f d < f best then d else best) b) ≤ f d := by
  induction l generalizing b with
  | nil => simp
  | cons a l ih =>
    obtain ⟨hmem, hle⟩ := ih (if f a < f b then a else b)
    rw [List.foldl_cons]
    constructor
    · rcases List.mem_cons.mp hmem with h | h
      · rw [h]
        split <;> simp
      · simp [h]
    · have hstart := hle _ List.mem_cons_self
      intro d hd
      simp only [List.mem_cons] at hd
      rcases hd with rfl | rfl | hd
      · refine hstart.trans ?_
        split <;> omega
      · refine hstart.trans ?_
        split <;> omega
      · exact hle d (List.mem_cons_of_mem _ hd)

/-- R84: the best shift lies within the search range, and no shift of the range has a lower score. -/
theorem bestShift_spec (p : Profiles) (n : Nat) :
    (bestShift p n).natAbs ≤ n ∧ ∀ d : Int, d.natAbs ≤ n → score p (bestShift p n) ≤ score p d := by
  obtain ⟨hmem, hle⟩ := foldl_best (score p) (shifts n) 0
  have hzero : (0 : Int) ∈ shifts n := mem_shifts.mpr (by simp)
  have hcons {d : Int} (h : d ∈ 0 :: shifts n) : d ∈ shifts n := by
    rcases List.mem_cons.mp h with rfl | h
    · exact hzero
    · exact h
  exact ⟨mem_shifts.mp (hcons hmem), fun d hd => hle d (List.mem_cons_of_mem _ (mem_shifts.mpr hd))⟩

/-- R86: between two neighbours that score no less, the minimum lies at most half a bin away. -/
theorem fitOffset_bound {a b c : Nat} (ha : c ≤ a) (hb : c ≤ b) : (fitOffset a b c).natAbs ≤ 128 := by
  unfold fitOffset
  split
  · simp
  · next h =>
    have hdepth : ((a : Int) - b).natAbs ≤ fitDepth a b c := by
      unfold fitDepth
      omega
    rw [Int.natAbs_tdiv, Int.natAbs_mul, Int.natAbs_natCast]
    refine Nat.div_le_of_le_mul ?_
    exact Nat.mul_le_mul_right 128 hdepth

theorem fitConfidence_le (a b c : Nat) : fitConfidence a b c ≤ 255 := by
  unfold fitConfidence
  split
  · exact Nat.zero_le _
  · refine Nat.div_le_of_le_mul ?_
    exact Nat.mul_le_mul_right 255 (Nat.sub_le _ _)

/-! ### The tone table (R124) -/

theorem toneEntry_le {t : Vector Nat 257} (h : ∀ i : Fin 257, t.get i ≤ 255) (i : Nat) : toneEntry t i ≤ 255 := by
  unfold toneEntry
  by_cases hi : i < 257
  · rw [Vector.getElem?_eq_getElem hi]
    exact h ⟨i, hi⟩
  · rw [Vector.getElem?_eq_none (Nat.le_of_not_lt hi)]
    exact Nat.zero_le _

/-- Between a and b, at f of 256 parts from a, rounded to the nearest: the step lies between 0 and b - a. -/
theorem interpolation_between (a b f : Nat) (hf : f < 256) :
    min a b ≤ ((a : Int) + (((b : Int) - a) * f + 128) / 256).toNat ∧
      ((a : Int) + (((b : Int) - a) * f + 128) / 256).toNat ≤ max a b := by
  rcases Nat.le_total a b with hab | hab
  · obtain ⟨d, rfl⟩ := Nat.exists_eq_add_of_le hab
    have hprod : d * f ≤ d * 255 := Nat.mul_le_mul_left d (by omega)
    have hcast : (((a + d : Nat) : Int) - a) * f = (d * f : Nat) := by push_cast; ring
    rw [hcast]
    omega
  · obtain ⟨d, rfl⟩ := Nat.exists_eq_add_of_le hab
    have hprod : d * f ≤ d * 255 := Nat.mul_le_mul_left d (by omega)
    have hcast : ((b : Int) - ((b + d : Nat) : Int)) * f = -((d * f : Nat) : Int) := by push_cast; ring
    rw [hcast]
    omega

end Sys2Proof.Machine

open Sys2Proof Sys2Proof.Machine

/-- Settles O46. -/
theorem measurementWithinBounds : Obligations.MeasurementWithinBounds := by
  intro p d cmin kz hd _
  obtain ⟨hrange, hbest⟩ := bestShift_spec p d
  unfold Machine.measure
  split
  · simp
  · split
    · simp
    · dsimp only
      split
      · next hedge =>
        refine ⟨?_, Nat.zero_le _, fun _ => rfl⟩
        show (bestShift p d * 256).natAbs ≤ 256 * d
        omega
      · next hinner =>
        have hoffset := fitOffset_bound (hbest (bestShift p d - 1) (by omega)) (hbest (bestShift p d + 1) (by omega))
        refine ⟨?_, fitConfidence_le _ _ _, fun h => by simp at h⟩
        show (bestShift p d * 256 + fitOffset _ _ _).natAbs ≤ 256 * d
        omega

/-- Settles O55. -/
theorem toneStaysWithinTable : Obligations.ToneStaysWithinTable := by
  intro t x htable _
  obtain ⟨hlow, hhigh⟩ := interpolation_between (toneEntry t (x / 256)) (toneEntry t (x / 256 + 1)) (x % 256)
    (Nat.mod_lt _ (by decide))
  exact ⟨hlow, hhigh, hhigh.trans (Nat.max_le.mpr ⟨toneEntry_le htable _, toneEntry_le htable _⟩)⟩

end

section
/-! PROOFS. The Order Unit's fetching, the watched words and the end of start-up. Settles O10, O20, O21 and O30. -/

namespace Sys2Proof.Machine

set_option Elab.async false

/-! ### Reads in order (R56, R168) -/

/-- The internal reads that wait for a grant or for a place, in the order in which they were asked for. -/
def readsAsked (s : State) : List (ReadPurpose × Nat) := (s.port.reads.map fun q => (q.purpose, q.addr)) ++ s.port.heldReads

/-- The reads `asked` have been asked for since s, and nothing else has changed. -/
structure ReadsAsked (asked : List (ReadPurpose × Nat)) (s t : State) : Prop where
  blocks : { t with port := s.port } = s
  reads : readsAsked t = readsAsked s ++ asked

theorem ReadsAsked.nil (s : State) : ReadsAsked [] s s := ⟨rfl, (List.append_nil _).symm⟩

theorem ReadsAsked.trans {as bs : List (ReadPurpose × Nat)} {s t u : State} (h : ReadsAsked as s t) (k : ReadsAsked bs t u) :
    ReadsAsked (as ++ bs) s u := by
  refine ⟨?_, by rw [k.reads, h.reads, List.append_assoc]⟩
  have e := congrArg (fun x : State => { x with port := s.port }) k.blocks
  exact e.trans h.blocks

theorem issueRead_asked (s : State) (p : ReadPurpose) (a : Nat) : ReadsAsked [(p, a)] s (issueRead s p a) := by
  rcases issueRead_cases s p a with ⟨hheld, -, h⟩ | ⟨-, h⟩ <;> rw [h]
  · exact ⟨rfl, by simp [readsAsked, enterRead, hheld]⟩
  · exact ⟨rfl, (List.append_assoc _ _ _).symm⟩

theorem fetchImage_asked (s : State) (o : OrderRecord) (len : Nat) :
    ReadsAsked ((List.range (len / 64)).map fun i => (.staging, controlBase s.caSel + 0x10000 + o.staging + 64 * i))
      (setPhase s (.imageFetch o)) (fetchImage s o len) := by
  have hfold (is : List Nat) (t : State) (ht : t.caSel = s.caSel) :
      ReadsAsked (is.map fun i => (.staging, controlBase s.caSel + 0x10000 + o.staging + 64 * i)) t
        (is.foldl (fun s i => issueRead s .staging (stagingAddr s o i)) t) := by
    induction is generalizing t with
    | nil => exact .nil t
    | cons i is ih =>
      have hfirst := issueRead_asked t .staging (stagingAddr t o i)
      rw [stagingAddr, ht] at hfirst
      refine ReadsAsked.trans hfirst ?_
      rw [List.foldl_cons, stagingAddr, ht]
      refine ih _ ((congrArg State.caSel hfirst.blocks).trans ht)
  exact hfold _ _ rfl

/-! ### A processor's write to a watched word (R53) -/

theorem classify_control {a : Nat} {b : BitVec 2} (h : a < controlBase b + 0x100000) : classify a = .plain := by
  have hbase : controlBase b ≤ 0x3FFF00000 := by
    unfold controlBase
    split <;> decide
  have ha : a < 0x400000000 := by omega
  have hspace (n : Nat) (hn : 0x400000000 ≤ n) : ¬n ≤ a := by omega
  rw [classify, if_neg (hspace _ (by decide)), if_neg (hspace _ (by decide)), if_neg (hspace _ (by decide))]

/-- The state once a plain write has left its slot and is stored. -/
def wordStored (s : State) (rest : List Request) (a : Nat) (data : List Byte) (mask : BitVec 64) : State :=
  enterPassWrite (freeWriteSlot s rest) a data mask

theorem exec_wordWrite {s : State} {r : Request} {rest : List Request} {data : List Byte} {mask : BitVec 64}
    (h : TakesWrite s r rest data mask) (hplain : classify (lineAddr r) = .plain) (hcheck : plainCheck s (lineAddr r) = none)
    (hc : sourceClass r.tag = .processor) :
    exec .takeWrite s = .next (watchedWrite (wordStored s rest (lineAddr r) data mask) (lineAddr r) data mask) := by
  refine exec_takeWrite_some h ((writeTaken_plain (s := freeWriteSlot s rest) _ data mask hplain hcheck).trans ?_)
  rw [hc]
  rfl

theorem watchedWrite_part (s : State) (a : Nat) (data : List Byte) {mask : BitVec 64} (h : wordMasked mask = false) :
    watchedWrite s a data mask = s := by
  rw [watchedWrite, h]
  rfl

theorem watchedWrite_post {s : State} {a : Nat} (data : List Byte) {mask : BitVec 64} (h : wordMasked mask = true)
    (ha : a = controlBase s.caSel + Config.postIndexAt) : watchedWrite s a data mask = postIndexWrite s (field data 0 4) := by
  rw [watchedWrite, h]
  exact if_pos ha

theorem watchedWrite_consumed {s : State} {a : Nat} (data : List Byte) {mask : BitVec 64} (h : wordMasked mask = true)
    (ha : a = controlBase s.caSel + Config.consumedIndexAt) : watchedWrite s a data mask = consumedIndexWrite s (field data 0 4) := by
  have hne : ¬a = controlBase s.caSel + Config.postIndexAt := by
    rw [ha, Config.postIndexAt, Config.consumedIndexAt]
    omega
  rw [watchedWrite, h]
  exact (if_neg hne).trans (if_pos ha)

/-! ### The next order (R166, R167) -/

theorem takeOrder_taken {s : State} (hidle : s.order.phase = .idle) (hp : 0 < pendingOrders s) :
    takeOrder s = issueRead { s with order := { s.order with phase := .fetching } } .orderRecord (orderAddr s s.order.taken) := by
  rw [takeOrder, if_pos (by simp [hidle, hp])]

theorem takeOrder_none {s : State} (h : s.order.phase ≠ .idle ∨ pendingOrders s = 0) : takeOrder s = s := by
  rw [takeOrder, if_neg]
  rcases h with h | h <;> simp [h]

/-! ### NOTICE OVERFLOW (R173) -/

theorem settle_overflow {s : State} (k : Nat) (h : s.port.work = []) (hroom : s.port.writes.length < 32) :
    settle (k + 1) (s.withWork [.overflow]) = settle k (writeOverflow s) := by
  have hrun : runWork .overflow ((s.withWork [.overflow]).withWork []) = some (writeOverflow s) := by
    rw [show (s.withWork [.overflow]).withWork [] = s from State.withWork_nil h]
    exact if_pos (writeRoom_iff.mpr hroom)
  exact settle_cons k rfl hrun

theorem writeOverflow_work {s : State} (h : s.port.work = []) : (writeOverflow s).port.work = [.line (.cursor 3), .attention] := by
  show _ :: _ :: s.port.work = _
  rw [h]

theorem writeOverflow_writes (s : State) : (writeOverflow s).port.writes.length = s.port.writes.length + 1 := by
  simp [writeOverflow, writeNotice, enterWrite]

/-- R173: with places for the record and its cursor page line. -/
theorem emit_overflow_room {s : State} (h : s.port.work = []) (hroom : s.port.writes.length + 2 ≤ 32) :
    emit s .overflow =
      evaluateAttention ((enterWrite (writeOverflow s) (ownLineWrite (writeOverflow s) (.cursor 3))).withWork []) := by
  have hwrites := writeOverflow_writes s
  have hend : (evaluateAttention ((enterWrite (writeOverflow s) (ownLineWrite (writeOverflow s) (.cursor 3))).withWork [])).port.work = [] := by
    rw [evaluateAttention_port]
    rfl
  rw [emit_idle _ h, settle_overflow 7 h (by omega), settle_notice 5 (writeOverflow_work h) (by omega), settle_nil 5 hend, goOn_nil _ hend]

/-- R173: with a place for the record alone, its cursor page line waits. -/
theorem emit_overflow_last {s : State} (h : s.port.work = []) (hroom : s.port.writes.length = 31) : emit s .overflow = writeOverflow s := by
  have hstuck : settle 7 (writeOverflow s) = writeOverflow s := by
    have hnone : runWork (.line (.cursor 3)) ((writeOverflow s).withWork [.attention]) = none := by
      have hfull : writeRoom ((writeOverflow s).withWork [.attention]) = false := by
        have hwrites := writeOverflow_writes s
        refine decide_eq_false ?_
        show ¬(writeOverflow s).port.writes.length < 32
        omega
      rw [runWork, hfull]
      rfl
    rw [settle]
    simp only [writeOverflow_work h]
    have e := hnone
    rw [State.withWork] at e
    rw [e]
  rw [emit_idle _ h, settle_overflow 7 h (by omega), hstuck, goOn_line _ _ _ (writeOverflow_work h) (.inr rfl)]

/-- R173: NOTICE OVERFLOW as the Notice Unit's registers show it. -/
structure OverflowReported (s t : State) : Prop where
  overflow : t.notice.overflow = 0
  number : t.notice.number = (s.notice.number + 1) % 65536
  writeIndex : t.notice.writeIndex = (s.notice.writeIndex + 1) % 256
  consumed : t.notice.consumedIndex = s.notice.consumedIndex
  unconsumed : t.notice.unconsumed = s.notice.unconsumed ++ [{ time := s.now, urgent := true }]
  outstanding : t.notice.outstanding = s.notice.outstanding
  record : MemoryCanonical s → ∀ i, i < 32 →
    t.mem.read (slotAddr s s.notice.writeIndex + i) = (noticeBytes (overflowNotice s) s.notice.number).getD i 0

theorem writeNotice_read {s : State} (n : Notice) (hm : MemoryCanonical s) {i : Nat} (hi : i < 32) :
    (writeNotice s n).mem.read (slotAddr s s.notice.writeIndex + i) = (noticeBytes n s.notice.number).getD i 0 :=
  noticeWrite_read s _ i n _ hm hi

theorem writeOverflow_reported (s : State) : OverflowReported s (writeOverflow s) where
  overflow := rfl
  number := rfl
  writeIndex := rfl
  consumed := rfl
  unconsumed := rfl
  outstanding := rfl
  record hm _ hi := writeNotice_read (s := { s with notice := { s.notice with overflow := 0 } }) (overflowNotice s) hm hi

theorem emit_overflow_reported {s : State} (h : s.port.work = []) (hroom : s.port.writes.length < 32) :
    OverflowReported s (emit s .overflow) := by
  by_cases hlast : s.port.writes.length = 31
  · rw [emit_overflow_last h hlast]
    exact writeOverflow_reported s
  · obtain ⟨h1, h2, h3, h4, h5, h6, hrecord⟩ := writeOverflow_reported s
    rw [emit_overflow_room h (by omega)]
    obtain ⟨c, l, p, e⟩ := evaluateAttention_cases ((enterWrite (writeOverflow s) (ownLineWrite (writeOverflow s) (.cursor 3))).withWork [])
    rw [e]
    refine ⟨h1, h2, h3, h4, h5, h6, fun hm i hi => Eq.trans ?_ (hrecord hm i hi)⟩
    refine (enterLine_reports (writeOverflow s) (.cursor 3)).mem _ (fun l hl => ?_) fun i hi => by omega
    rw [List.mem_singleton.mp hl]
    exact cursor_outside_ring s 3 _ _

/-- R173, R174: the report is urgent, so that the condition stands once it is evaluated. -/
theorem emit_overflow_evaluated {s : State} (h : s.port.work = []) (hroom : s.port.writes.length + 2 ≤ 32) :
    AttentionEvaluated s.notice true s.now (emit s .overflow).notice := by
  rw [emit_overflow_room h hroom]
  have heval := evaluateAttention_evaluated ((enterWrite (writeOverflow s) (ownLineWrite (writeOverflow s) (.cursor 3))).withWork [])
  have hstands : attentionCondition ((enterWrite (writeOverflow s) (ownLineWrite (writeOverflow s) (.cursor 3))).withWork []) = true := by
    have hurgent : (s.notice.unconsumed ++ [({ time := s.now, urgent := true } : NoticeMark)]).any NoticeMark.urgent = true := by simp
    exact (Bool.or_eq_true _ _).mpr (.inr hurgent)
  rw [hstands] at heval
  exact ⟨heval.standing, heval.level, heval.rises, heval.keeps⟩

theorem reportOverflow_idle {s : State} (h : s.port.work = []) : reportOverflow s = emit s .overflow := by
  rw [reportOverflow, reportWaits, h]
  rfl

/-- R173: behind work that waits, the report waits too. -/
theorem reportOverflow_waits {s : State} (h : s.port.work ≠ []) :
    reportWaits (reportOverflow s) = true ∧ (reportOverflow s).notice = s.notice ∧ (reportOverflow s).order = s.order := by
  unfold reportOverflow
  split
  · next hw => exact ⟨hw, rfl, rfl⟩
  · have hjoined : emit s .overflow = s.withWork (s.port.work ++ [.overflow]) := by
      rw [emit, if_neg (by simpa using h)]
      rfl
    rw [hjoined]
    exact ⟨by simp [reportWaits], rfl, rfl⟩

/-! ### The consumed index (R172) -/

theorem consumedIndexWrite_beyond {s : State} {v : Nat} (h : unconsumedCount s < consumedSpan s v) : consumedIndexWrite s v = s :=
  if_neg (Nat.not_le.mpr h)

theorem consumedIndexWrite_within {s : State} {v : Nat} (h : consumedSpan s v ≤ unconsumedCount s) :
    consumedIndexWrite s v =
      if unconsumedCount (consumeNotices s v) < 255 ∧ 0 < s.notice.overflow then reportOverflow (consumeNotices s v)
      else evaluateAttention (consumeNotices s v) := by
  rw [consumedIndexWrite, if_pos h]
  simp only [Bool.and_eq_true, decide_eq_true_eq]
  rfl

theorem reportOverflow_frame (s : State) : (reportOverflow s).order.post = s.order.post ∧ (reportOverflow s).shots = s.shots ∧
    (reportOverflow s).pool = s.pool ∧ (reportOverflow s).notice.consumedIndex = s.notice.consumedIndex := by
  have hwork : OnlyOwnWork s (reportOverflow s) := by
    unfold reportOverflow
    split
    · exact ⟨rfl, rfl, rfl, rfl⟩
    · exact emit_ownWork s _
  have hconsumed := congrArg NoticeUnit.consumedIndex hwork.notice
  exact ⟨hwork.post, hwork.field State.shots, hwork.field State.pool, hconsumed⟩

/-! ### Start-up (R177) -/

/-- R177 step 2: the cursor page is written. -/
def pageWritten (s : State) : State := (List.finRange 9).foldl publish s

theorem publishes_linesIn (s : State) (ns : List (Fin 9)) : LinesIn ns.length s (ns.foldl publish s) := by
  induction ns generalizing s with
  | nil => exact .of_ports
  | cons n ns ih => exact ((publish_linesIn s n).trans (ih _)).mono (by simp [Nat.add_comm])

theorem publishes_reports (s : State) (ns : List (Fin 9)) : OnlyReports (ns.map .cursor) 0 s (ns.foldl publish s) :=
  emitLines_reports s OwnLine.cursor ns

/-- R165: the first byte of the cursor page. -/
theorem publish_pageByte {s : State} (hm : MemoryCanonical s) (hwork : s.port.work = []) (hroom : s.port.writes.length < 32) :
    (publish s 0).mem.read (controlBase s.caSel + Config.cursorPage) = 1 := by
  obtain ⟨t, rfl, -, hread, -⟩ := lineWrittenBack s (.cursor 0) hm hwork hroom
  exact hread 0 (by decide) (by simp [ownLineWrite, fullMask])

/-- No other line of the cursor page and no notice covers it. -/
theorem OnlyReports.pageByte {ls : List OwnLine} {n : Nat} {s t : State} (h : OnlyReports ls n s t)
    (hls : ∀ l ∈ ls, ∃ k : Fin 9, l = .cursor k ∧ k ≠ 0) :
    t.mem.read (controlBase s.caSel + Config.cursorPage) = s.mem.read (controlBase s.caSel + Config.cursorPage) := by
  refine h.mem _ (fun l hl => ?_) fun i _ => ?_
  · obtain ⟨k, rfl, hk⟩ := hls l hl
    intro j hj _
    have hpos : k.val ≠ 0 := fun e => hk (Fin.ext e)
    simp only [ownLineWrite]
    omega
  · simp only [Outside, slotAddr, Config.cursorPage, Config.noticeRing]
    omega

/-- R177 steps 2 and 3: the cursor page and the STARTED notice. -/
def startedState (s : State) : State := hand (pageWritten s) (startedNotice (pageWritten s))

theorem startedState_reported (s : State) : Reported s (startedState s) :=
  (publishes_reports s (List.finRange 9)).reported.trans (plainNotice_reported _ _ _ _)

/-- R177 step 1: the part is started. -/
def awake (s : State) : State := { s with phase := .started }

theorem startUp_eq (s : State) :
    startUp s = if s.lensPin then attachLens (startedState (awake s))
      else startedState (awake s) := by
  have hpin : (startedState (awake s)).lensPin = s.lensPin :=
    (startedState_reported (awake s)).field State.lensPin
  show (if (startedState (awake s)).lensPin then attachLens (startedState (awake s))
    else startedState (awake s)) = _
  rw [hpin]

/-- R177 step 2: the first byte of the cursor page is in. -/
theorem pageWritten_byte {s : State} (hm : MemoryCanonical s) (hwork : s.port.work = []) (hroom : s.port.writes.length < 32) :
    (pageWritten s).mem.read (controlBase s.caSel + Config.cursorPage) = 1 := by
  have hrest := (publishes_reports (publish s 0) ((List.finRange 8).map Fin.succ)).pageByte fun l hl => by
    obtain ⟨k, hk, rfl⟩ := List.mem_map.mp hl
    obtain ⟨j, -, rfl⟩ := List.mem_map.mp hk
    exact ⟨j.succ, rfl, Fin.succ_ne_zero j⟩
  rw [publish_caSel] at hrest
  rw [pageWritten, List.finRange_succ, List.foldl_cons]
  exact hrest.trans (publish_pageByte hm hwork hroom)

@[simp] theorem arbitrate_mem (s : State) : (arbitrate s).mem = s.mem := by rw [arbitrate_lens]
@[simp] theorem arbitrate_notice (s : State) : (arbitrate s).notice = s.notice := by rw [arbitrate_lens]
@[simp] theorem arbitrate_phase (s : State) : (arbitrate s).phase = s.phase := by rw [arbitrate_lens]
@[simp] theorem arbitrate_pending (s : State) : (arbitrate s).pending = s.pending := by rw [arbitrate_lens]

/-- The arbiter does not change the lens state. -/
@[simp] theorem arbitrate_lensState (s : State) : (arbitrate s).lens.state = s.lens.state := by
  unfold arbitrate beginMessage beginDrive beginExchange
  repeat' split
  all_goals rfl

/-- R102: the lens controller that identification starts from. -/
def identifying (s : State) : State :=
  { s with lens := { s.lens with state := .identifying, timeouts := 0, info := none, identPending := true } }

theorem attachLens_eq (s : State) : attachLens s = arbitrate (publish (identifying s) 6) := rfl

theorem attachLens_reports (s : State) : OnlyReports [.cursor 6] 0 { s with lens := (attachLens s).lens } (attachLens s) := by
  rw [attachLens_eq, arbitrate_lens]
  exact (publish_reports (identifying s) 6).map fun u => { u with lens := (arbitrate (publish (identifying s) 6)).lens }

/-- R171, R174: the first notice of all, with the settings of reset, asserts the line. -/
theorem hand_first {s : State} (n : Notice) (hwork : s.port.work = []) (hroom : s.port.writes.length + 2 ≤ 32)
    (hindex : s.notice.writeIndex = 0) (hconsumed : s.notice.consumedIndex = 0) (hbatch : s.notice.batch = 1)
    (hmode : s.notice.mode = .level) : (hand s n).notice.writeIndex = 1 ∧ (hand s n).notice.line = true := by
  have hcount : unconsumedCount s = 0 := by rw [unconsumedCount, hindex, hconsumed]
  have hentered : (noticeEntered s n).notice.batch = s.notice.batch ∧ (noticeEntered s n).notice.mode = s.notice.mode ∧
      (noticeEntered s n).notice.writeIndex = (s.notice.writeIndex + 1) % 256 ∧
      (noticeEntered s n).notice.consumedIndex = s.notice.consumedIndex := ⟨rfl, rfl, rfl, rfl⟩
  obtain ⟨hb, hm, hw, hc⟩ := hentered
  rw [hbatch] at hb
  rw [hmode] at hm
  rw [hindex] at hw
  rw [hconsumed] at hc
  have hstands : attentionCondition (noticeEntered s n) = true := by
    rw [attentionCondition, unconsumedCount, hb, hw, hc]
    rfl
  have heval := evaluateAttention_evaluated (noticeEntered s n)
  obtain ⟨c, l, p, e⟩ := evaluateAttention_cases (noticeEntered s n)
  rw [hand_room n hwork hroom (by omega), (heval.level hm).1, hstands]
  refine ⟨?_, rfl⟩
  rw [e]
  exact hw

/-- R177 step 3: what the first notice leaves where a page `p` has been written since s. -/
theorem firstNotice_spec {s p : State} (n : Notice) (hclass : n.fault = none) (hlines : LinesIn 9 s p)
    (hm : MemoryCanonical s) (hwork : s.port.work = []) (hwrites : s.port.writes = [])
    (hindex : s.notice.writeIndex = 0) (hconsumed : s.notice.consumedIndex = 0) (hnumber : s.notice.number = 0)
    (hbatch : s.notice.batch = 1) (hmode : s.notice.mode = .level) :
    (hand p n).notice.writeIndex = 1 ∧ (hand p n).notice.number = 1 ∧ (hand p n).notice.line = true ∧
      (hand p n).mem.read (controlBase s.caSel + Config.cursorPage) = p.mem.read (controlBase s.caSel + Config.cursorPage) ∧
      ∀ i, i < 32 → (hand p n).mem.read (slotAddr s 0 + i) = (noticeBytes n 0).getD i 0 := by
  have hnone : s.port.writes.length = 0 := by rw [hwrites, List.length_nil]
  have hpage : p.notice = s.notice := hlines.notice
  obtain ⟨hwork', hlen⟩ := hlines.room hwork (by omega)
  obtain ⟨hnext, hread⟩ := hlines.hand_read n hm hwork (by omega) (by rw [unconsumedCount, hindex, hconsumed]; decide)
  obtain ⟨hwritten, hline⟩ := hand_first n hwork' (by omega) (by rw [hpage, hindex])
    (by rw [hpage, hconsumed]) (by rw [hpage, hbatch]) (by rw [hpage, hmode])
  have hhand := (hand_reports p n hclass).pageByte fun l hl => by
    obtain rfl := List.mem_singleton.mp hl
    exact ⟨3, rfl, by decide⟩
  rw [hlines.caSel] at hhand
  rw [hnumber] at hnext
  rw [hnumber, hindex] at hread
  exact ⟨hwritten, hnext, hline, hhand, hread⟩

theorem slotAddr_zero (s : State) : slotAddr s 0 = controlBase s.caSel + Config.noticeRing := by
  rw [slotAddr, Nat.mul_zero, Nat.add_zero]

/-- R177 step 3: the STARTED notice carries both straps. -/
theorem startedNotice_straps (s : State) : (noticeBytes (startedNotice s) 0).getD 10 0 = BitVec.ofNat 8 s.caSel.toNat ∧
    (noticeBytes (startedNotice s) 0).getD 11 0 = BitVec.ofNat 8 s.memSize.toNat := by
  simp only [startedNotice]
  generalize s.caSel.toNat = c
  generalize s.memSize.toNat = m
  exact ⟨rfl, rfl⟩

/-- R177 steps 2 to 4: what the end of start-up has written, before the lens is looked at. -/
theorem startedState_spec {s : State} (hm : MemoryCanonical s) (hwork : s.port.work = []) (hwrites : s.port.writes = [])
    (hindex : s.notice.writeIndex = 0) (hconsumed : s.notice.consumedIndex = 0) (hnumber : s.notice.number = 0)
    (hbatch : s.notice.batch = 1) (hmode : s.notice.mode = .level) :
    (startedState s).notice.writeIndex = 1 ∧ (startedState s).notice.number = 1 ∧ (startedState s).notice.line = true ∧
      (startedState s).mem.read (controlBase s.caSel + Config.cursorPage) = 1 ∧
      ∀ i, i < 32 → (startedState s).mem.read (controlBase s.caSel + Config.noticeRing + i) = (noticeBytes (startedNotice (pageWritten s)) 0).getD i 0 := by
  have hlines : LinesIn 9 s (pageWritten s) := publishes_linesIn s (List.finRange 9)
  have hbyte := pageWritten_byte hm hwork (by rw [hwrites]; decide)
  rw [startedState, ← hbyte, ← slotAddr_zero s]
  exact firstNotice_spec _ rfl hlines hm hwork hwrites hindex hconsumed hnumber hbatch hmode

end Sys2Proof.Machine

open Sys2Proof Sys2Proof.Machine

/-- Settles O30. -/
theorem ordersAreDispatched : Obligations.OrdersAreDispatched := by
  intro s
  refine ⟨fun e more hphase hreads => ?_, fun o hphase hwaiting => ?_, fun o img hphase hcode => ?_⟩
  · have hexec : exec .orderRecordFetched s = .next (dispatchRecord (takeReturned s .orderRecord) (decodeOrder e.data)) := by
      show execOrderRecordFetched s = _
      rw [execOrderRecordFetched, hphase, hreads]
    refine ⟨fun hnone => ?_, fun len hlen => ⟨fun hfits => ?_, fun hfits => ?_⟩⟩
    · rw [hexec, dispatchRecord, hnone]
      exact ⟨_, rfl, rfl, rfl, rfl, rfl⟩
    · rw [hexec, dispatchRecord, hlen]
      simp only [hfits, if_true]
      have hasked := fetchImage_asked (takeReturned s .orderRecord) (decodeOrder e.data) len
      have hphase' := congrArg (fun u : State => u.order.phase) hasked.blocks
      have htaken := congrArg (fun u : State => u.order.taken) hasked.blocks
      have hmem := congrArg State.mem hasked.blocks
      have hshots := congrArg State.shots hasked.blocks
      exact ⟨_, rfl, hphase', htaken, hmem, hshots, hasked.reads⟩
    · rw [hexec, dispatchRecord, hlen]
      simp only [hfits, Bool.false_eq_true, if_false]
  · refine ⟨setPhase (takeReturned s .staging) (.dispatched o ((returnedReads s .staging).flatMap fun r => r.data)), ?_, rfl, rfl, rfl⟩
    show execStagingImageFetched s = _
    rw [execStagingImageFetched, hphase]
    simp only [hwaiting, Bool.false_eq_true, if_false]
  · show execUnknownOrder s = _
    rw [execUnknownOrder, hphase]
    simp only [hcode, if_true]

/-- Settles O20. -/
theorem postIndexWriteReachesOrderUnit : Obligations.PostIndexWriteReachesOrderUnit := by
  intro s r rest data mask htakes haddr hcheck hclass
  have hplain : classify (lineAddr r) = .plain := classify_control (b := s.caSel) (by rw [haddr, Config.postIndexAt]; omega)
  rw [exec_wordWrite htakes hplain hcheck hclass]
  refine ⟨_, rfl, ?_⟩
  cases hmask : wordMasked mask with
  | false =>
    rw [watchedWrite_part _ _ _ hmask]
    exact ⟨rfl, rfl, rfl, rfl, fun _ => ⟨rfl, rfl⟩, nofun⟩
  | true =>
    rw [watchedWrite_post (s := wordStored s rest (lineAddr r) data mask) data hmask haddr, postIndexWrite]
    generalize hu : ({ wordStored s rest (lineAddr r) data mask with
      order := { (wordStored s rest (lineAddr r) data mask).order with post := field data 0 4 % 64 } } : State) = u
    have hpending : pendingOrders u = (field data 0 4 % 64 + 64 - s.order.taken) % 64 := by rw [← hu]; rfl
    have hphase : u.order.phase = s.order.phase := by rw [← hu]; rfl
    have haddress : orderAddr u u.order.taken = controlBase s.caSel + 0x2000 + 64 * s.order.taken := by rw [← hu]; rfl
    have hport : u.port.reads = s.port.reads ∧ u.port.heldReads = s.port.heldReads := by rw [← hu]; exact ⟨rfl, rfl⟩
    have hframe : u.order.taken = s.order.taken ∧ u.notice = s.notice ∧ u.shots = s.shots ∧ u.pool = s.pool ∧
        u.order.post = field data 0 4 % 64 := by rw [← hu]; exact ⟨rfl, rfl, rfl, rfl, rfl⟩
    clear hu
    obtain ⟨htaken, hnotice, hshots, hpool, hpost⟩ := hframe
    obtain ⟨hreads, hheld⟩ := hport
    by_cases hnext : s.order.phase = .idle ∧ 0 < (field data 0 4 % 64 + 64 - s.order.taken) % 64
    · rw [takeOrder_taken (by rw [hphase]; exact hnext.1) (by rw [hpending]; exact hnext.2), haddress]
      have hother : ¬(s.order.phase ≠ .idle ∨ (field data 0 4 % 64 + 64 - s.order.taken) % 64 = 0) := by
        rintro (h | h)
        · exact h hnext.1
        · omega
      rcases issueRead_cases { u with order := { u.order with phase := .fetching } } .orderRecord
        (controlBase s.caSel + 0x2000 + 64 * s.order.taken) with ⟨hnone, hroom, e⟩ | ⟨hfull, e⟩
      · have hroom : s.port.reads.length < 16 := by rw [← hreads]; exact hroom
        have hnone : s.port.heldReads = [] := hheld.symm.trans hnone
        rw [e]
        refine ⟨htaken, hnotice, hshots, hpool, nofun, fun _ => ⟨hpost, fun _ => ⟨rfl, fun _ _ => ?_, fun h => ?_⟩,
          fun h => absurd h hother⟩⟩
        · refine ⟨{
            purpose := .orderRecord, addr := controlBase s.caSel + 0x2000 + 64 * s.order.taken
            data := u.mem.readLine (controlBase s.caSel + 0x2000 + 64 * s.order.taken), entry := u.port.nextEntry, wait := 0 },
            ?_, ?_, rfl, rfl, rfl⟩
          · show u.port.reads ++ _ = s.port.reads ++ _
            rw [hreads]
          · exact hheld.trans hnone
        · rcases h with h | h
          · exact absurd hnone h
          · omega
      · have hfull : s.port.heldReads ≠ [] ∨ 16 ≤ s.port.reads.length := by rw [← hreads, ← hheld]; exact hfull
        rw [e]
        refine ⟨htaken, hnotice, hshots, hpool, nofun, fun _ => ⟨hpost, fun _ => ⟨rfl, fun h1 h2 => ?_, fun _ => ⟨hreads, ?_⟩⟩,
          fun h => absurd h hother⟩⟩
        · rcases hfull with h | h
          · exact absurd h1 h
          · omega
        · show u.port.heldReads ++ _ = _
          rw [hheld]
    · have hnone : s.order.phase ≠ .idle ∨ (field data 0 4 % 64 + 64 - s.order.taken) % 64 = 0 := by
        by_cases h : s.order.phase = .idle
        · exact .inr (Nat.eq_zero_of_not_pos fun hp => hnext ⟨h, hp⟩)
        · exact .inl h
      rw [takeOrder_none (by rw [hphase, hpending]; exact hnone)]
      exact ⟨htaken, hnotice, hshots, hpool, nofun, fun _ => ⟨hpost, fun h => absurd h hnext, fun _ => ⟨hphase, hreads, hheld⟩⟩⟩

/-- Settles O21. -/
theorem consumedIndexWriteConsumes : Obligations.ConsumedIndexWriteConsumes := by
  intro s r rest data mask n left htakes haddr hcheck hclass hmask hn hleft
  have hplain : classify (lineAddr r) = .plain := classify_control (b := s.caSel) (by rw [haddr, Config.consumedIndexAt]; omega)
  rw [exec_wordWrite htakes hplain hcheck hclass,
    watchedWrite_consumed (s := wordStored s rest (lineAddr r) data mask) data hmask haddr]
  refine ⟨_, rfl, ?_⟩
  have hspan : consumedSpan (wordStored s rest (lineAddr r) data mask) (field data 0 4) = n := hn.symm
  have hcount : unconsumedCount (wordStored s rest (lineAddr r) data mask) = unconsumedCount s := rfl
  rcases Nat.lt_or_ge (unconsumedCount s) n with hbeyond | hwithin
  · rw [consumedIndexWrite_beyond (by rw [hspan, hcount]; exact hbeyond)]
    exact ⟨rfl, rfl, rfl, fun _ => rfl, fun h => absurd hbeyond (Nat.not_lt.mpr h)⟩
  · rw [consumedIndexWrite_within (by rw [hspan, hcount]; exact hwithin)]
    have hleft' : unconsumedCount (consumeNotices (wordStored s rest (lineAddr r) data mask) (field data 0 4)) = left := hleft.symm
    have hcanonical : MemoryCanonical s →
        MemoryCanonical (consumeNotices (wordStored s rest (lineAddr r) data mask) (field data 0 4)) :=
      fun hm => Memory.wf_writeLine s.mem (lineAddr r) data mask hm
    have hslot : slotAddr (consumeNotices (wordStored s rest (lineAddr r) data mask) (field data 0 4)) = slotAddr s := rfl
    have hconsumed : (consumeNotices (wordStored s rest (lineAddr r) data mask) (field data 0 4)).notice =
        { s.notice with
          consumedIndex := field data 0 4 % 256
          unconsumed := s.notice.unconsumed.drop n
          outstanding := s.notice.outstanding.map (passOutstanding s.notice.consumedIndex n) } := by rw [hn]; rfl
    have hport : (consumeNotices (wordStored s rest (lineAddr r) data mask) (field data 0 4)).port.work = s.port.work ∧
        (consumeNotices (wordStored s rest (lineAddr r) data mask) (field data 0 4)).port.writes = s.port.writes ∧
        (consumeNotices (wordStored s rest (lineAddr r) data mask) (field data 0 4)).now = s.now ∧
        (consumeNotices (wordStored s rest (lineAddr r) data mask) (field data 0 4)).order.post = s.order.post ∧
        (consumeNotices (wordStored s rest (lineAddr r) data mask) (field data 0 4)).shots = s.shots ∧
        (consumeNotices (wordStored s rest (lineAddr r) data mask) (field data 0 4)).pool = s.pool := ⟨rfl, rfl, rfl, rfl, rfl, rfl⟩
    have hoverflow : (wordStored s rest (lineAddr r) data mask).notice.overflow = s.notice.overflow := rfl
    rw [hleft', hoverflow]
    generalize consumeNotices (wordStored s rest (lineAddr r) data mask) (field data 0 4) = c at *
    obtain ⟨hwork, hwrites, hnow, hpost, hshots, hpool⟩ := hport
    by_cases hreport : left < 255 ∧ 0 < s.notice.overflow
    · rw [if_pos hreport]
      obtain ⟨hpost', hshots', hpool', hindex⟩ := reportOverflow_frame c
      refine ⟨hpost'.trans hpost, hshots'.trans hshots, hpool'.trans hpool, fun h => absurd hwithin (Nat.not_le.mpr h), fun _ =>
        ⟨by rw [hindex, hconsumed], fun h => by omega, fun _ _ => ⟨fun hidle hroom => ?_, fun hbusy => ?_⟩⟩⟩
      · have hidle' : c.port.work = [] := hwork.trans hidle
        have hreported := emit_overflow_reported hidle' (by rw [hwrites]; exact hroom)
        rw [reportOverflow_idle hidle']
        refine ⟨hreported.overflow, ?_, ?_, ?_, ?_, fun hm _ i hi => ?_, fun hroom' => ?_⟩
        · rw [hreported.number, hconsumed]
        · rw [hreported.writeIndex, hconsumed]
        · rw [hreported.unconsumed, hconsumed, hnow]
        · rw [hreported.outstanding, hconsumed]
        · have hrecord := hreported.record (hcanonical hm) i hi
          rw [hslot, overflowNotice, hconsumed] at hrecord
          exact hrecord
        · have heval := emit_overflow_evaluated hidle' (by rw [hwrites]; exact hroom')
          rw [hconsumed, hnow] at heval
          exact ⟨heval.standing, heval.level, heval.rises, heval.keeps⟩
      · obtain ⟨hwaits, hnotice, -⟩ := reportOverflow_waits (s := c) (by rw [hwork]; exact hbusy)
        rw [hnotice, hconsumed]
        exact ⟨hwaits, rfl, rfl, rfl⟩
    · rw [if_neg hreport]
      have heval := evaluateAttention_evaluated c
      have hcondition := evaluateAttention_condition c
      obtain ⟨b, l, p, e⟩ := evaluateAttention_cases c
      rw [hconsumed, hnow] at heval
      rw [← hcondition] at heval
      have hnotice : (evaluateAttention c).notice = { c.notice with standing := b, line := l, pulse := p } := by rw [e]
      refine ⟨?_, ?_, ?_, fun h => absurd hwithin (Nat.not_le.mpr h), fun _ => ⟨?_, fun _ => ⟨?_, ?_, ?_, ?_,
        heval.standing, heval.level, heval.rises, heval.keeps⟩, fun ho hl => absurd ⟨hl, ho⟩ hreport⟩⟩
      · rw [e]
        exact hpost
      · rw [e]
        exact hshots
      · rw [e]
        exact hpool
      all_goals rw [hnotice, hconsumed]

/-- Settles O10. -/
theorem startUpEnds : Obligations.StartUpEnds := by
  intro caSel memSize pin pending
  refine ⟨fun hinside => ?_, fun hfault => ?_⟩
  · have hexec : exec .startUpComplete (State.powerOn caSel memSize pin pending) = .next (startUp (State.powerOn caSel memSize pin pending)) := by
      show execStartUpComplete _ = _
      rw [execStartUpComplete, if_neg (by simp [State.powerOn]), if_pos hinside]
    have hcaSel : (State.powerOn caSel memSize pin pending).caSel = caSel := rfl
    have hpin : (State.powerOn caSel memSize pin pending).lensPin = pin := rfl
    obtain ⟨hindex, hnumber, hline, hbyte, hslot⟩ := startedState_spec
      (s := awake (State.powerOn caSel memSize pin pending)) (powerOn_mem_wf caSel memSize pin pending) rfl rfl
      rfl rfl rfl rfl rfl
    have hpage := (publishes_reports (awake (State.powerOn caSel memSize pin pending)) (List.finRange 9)).reported
    have hcaSel'' : (pageWritten (awake (State.powerOn caSel memSize pin pending))).caSel = caSel :=
      hpage.field State.caSel
    have hmemSize : (pageWritten (awake (State.powerOn caSel memSize pin pending))).memSize = memSize :=
      hpage.field State.memSize
    have hreported := startedState_reported (awake (State.powerOn caSel memSize pin pending))
    have hphase : _ = StartPhase.started := hreported.field State.phase
    have hpending : _ = pending := hreported.field State.pending
    have hlens : _ = LensState.absent := hreported.field fun u => u.lens.state
    have hcaSel' : _ = caSel := hreported.field State.caSel
    have hten := (hslot 10 (by decide)).trans (startedNotice_straps _).1
    have heleven := (hslot 11 (by decide)).trans (startedNotice_straps _).2
    rw [hcaSel''] at hten
    rw [hmemSize] at heleven
    rw [hexec, startUp_eq, hpin]
    clear hpage hcaSel'' hmemSize hslot hreported
    generalize startedState (awake (State.powerOn caSel memSize pin pending)) = t at *
    clear hexec
    cases pin
    · rw [if_neg Bool.false_ne_true]
      exact ⟨t, rfl, hphase, hindex, hnumber, hline, hbyte, hten, heleven, nofun, fun _ => hlens, hpending⟩
    · rw [if_pos rfl]
      have hattach := attachLens_reports t
      have hring (i : Nat) : (attachLens t).mem.read (controlBase caSel + Config.noticeRing + i) =
          t.mem.read (controlBase caSel + Config.noticeRing + i) := by
        rw [← hcaSel', ← slotAddr_zero t]
        refine hattach.mem _ (fun l hl => ?_) fun i hi => by omega
        rw [List.mem_singleton.mp hl]
        exact cursor_outside_ring _ 6 _ _
      have hbyte' := hattach.pageByte fun l hl => by
        obtain rfl := List.mem_singleton.mp hl
        exact ⟨6, rfl, by decide⟩
      rw [hcaSel'] at hbyte'
      have hnotice : (attachLens t).notice = t.notice := hattach.quiet rfl
      refine ⟨_, rfl, (hattach.reported.field State.phase).trans hphase, ?_, ?_, ?_, hbyte'.trans hbyte, (hring 10).trans hten,
        (hring 11).trans heleven, fun _ => ?_, nofun, (hattach.reported.field State.pending).trans hpending⟩
      · rw [hnotice, hindex]
      · rw [hnotice, hnumber]
      · rw [hnotice, hline]
      · rw [attachLens_eq, arbitrate_lensState]
        exact (publish_reported (identifying t) 6).field fun u => u.lens.state
  · refine ⟨{ State.powerOn caSel memSize pin pending with
      phase := .strapFault
      notice := { (State.powerOn caSel memSize pin pending).notice with line := true } }, ?_, rfl, rfl, rfl, rfl, rfl⟩
    show execStartUpComplete _ = _
    rw [execStartUpComplete, if_neg (by simp [State.powerOn]), if_neg (by rw [hfault]; decide)]

end

section
/-! PROOFS. The lens line: the arbiter's choice, the end of an exchange, attachment and the lens timers. Settles O48, O49 and O50. -/

namespace Sys2Proof.Machine

set_option Elab.async false

/-! ### The arbiter (R104, R114) -/

/-- R104: a request begins its exchange with its frame. -/
theorem beginExchange_framed (s : State) (l : Lens) {r : LensRequest} {body : List Byte} (h : requestFrame r = framed body) :
    beginExchange { s with lens := l } r = withExchange s l r body := by
  rw [beginExchange, h]
  rfl

theorem arbitrate_busy {s : State} (h : s.lens.exchange.isSome = true ∨ s.lens.state = .absent) : arbitrate s = s := by
  unfold arbitrate
  rcases h with h | h
  · rw [if_pos h]
  · rw [h]
    exact ite_self _

theorem arbitrate_identifying {s : State} (hfree : s.lens.exchange = none) (h : s.lens.state = .identifying) :
    arbitrate s = if s.lens.identPending then withExchange s { s.lens with identPending := false } .ident [1] else s := by
  unfold arbitrate
  rw [hfree, h]
  rfl

theorem arbitrate_unresponsive {s : State} (hfree : s.lens.exchange = none) (h : s.lens.state = .unresponsive) :
    arbitrate s = if s.lens.pollPending then
        (if s.lens.info.isSome then withExchange s { s.lens with pollPending := false } .status [2]
          else withExchange s { s.lens with pollPending := false } .ident [1])
      else s := by
  unfold arbitrate
  rw [hfree, h]
  cases s.lens.info <;> rfl

/-- R114: the READY lens. -/
theorem arbitrate_ready {s : State} (hfree : s.lens.exchange = none) (h : s.lens.state = .ready) :
    arbitrate s =
      if s.lens.stopPending then withExchange s { s.lens with stopPending := false } .stop [4]
      else if !s.lens.messages.isEmpty && driveMayBegin s then
        (if s.lens.previous = .message then beginDrive s else beginMessage s)
      else if !s.lens.messages.isEmpty then beginMessage s
      else if driveMayBegin s then beginDrive s
      else if s.lens.statusPending then withExchange s { s.lens with statusPending := false } .status [2]
      else s := by
  unfold arbitrate
  rw [hfree, h]
  rfl

theorem beginMessage_eq {s : State} {m : LensMessage} {more : List LensMessage} (h : s.lens.messages = m :: more) :
    beginMessage s = withExchange s { s.lens with messages := more } (.message m)
      ([m.kind, BitVec.ofNat 8 m.data.length] ++ m.data) := by
  rw [beginMessage, h]
  exact beginExchange_framed s _ rfl

/-- R110: the speed class comes from the distance to the last reported position. -/
theorem beginDrive_eq {s : State} {target : Nat} {r : PositionReport} (h : s.lens.drive = some target) (hr : s.lens.report = some r) :
    beginDrive s = withExchange s { s.lens with drive := none } (.drive target (speedClass (absDiff target r.position)))
      ([3] ++ leBytes 2 target ++ [BitVec.ofNat 8 (speedClass (absDiff target r.position))]) := by
  have hdistance : driveDistance s target = absDiff target r.position := by
    rw [driveDistance, hr]
    rfl
  rw [beginDrive, h]
  simp only [hdistance]
  exact beginExchange_framed s _ rfl

theorem driveMayBegin_iff {s : State} (h : s.lens.state = .ready) :
    driveMayBegin s = true ↔ s.lens.drive ≠ none ∧ capturingCount s = 0 := by
  simp [driveMayBegin, h, Option.isSome_iff_ne_none]

theorem arbiterChose (s : State) : ArbiterChose s (arbitrate s) where
  busy h := arbitrate_busy h
  ident hfree h := arbitrate_identifying hfree h
  poll hfree h := arbitrate_unresponsive hfree h
  stop hfree h hstop := by rw [arbitrate_ready hfree h, if_pos hstop]
  message hfree h hstop m more hm hturn := by
    have hsome : s.lens.messages.isEmpty = false := by rw [hm]; rfl
    rw [arbitrate_ready hfree h, if_neg (by rw [hstop]; decide), hsome, ← beginMessage_eq hm]
    simp only [Bool.not_false, Bool.true_and, if_true]
    split
    · next hdrive =>
      obtain ⟨hd, hc⟩ := (driveMayBegin_iff h).mp hdrive
      refine if_neg fun hp => ?_
      rcases hturn with e | e | e
      · exact e hp
      · exact hd e
      · exact e hc
    · rfl
  drive hfree h hstop target r speed hd hr hc hturn hspeed := by
    have hdrive : driveMayBegin s = true := (driveMayBegin_iff h).mpr ⟨by rw [hd]; nofun, hc⟩
    rw [arbitrate_ready hfree h, if_neg (by rw [hstop]; decide), hdrive, hspeed, ← beginDrive_eq hd hr]
    rcases hturn with e | e
    · rw [e]
      rfl
    · rw [e]
      cases s.lens.messages.isEmpty <;> rfl
  status hfree h hstop hm hdrive := by
    have hno : driveMayBegin s = false := by
      rw [Bool.eq_false_iff]
      intro ht
      obtain ⟨hd, hc⟩ := (driveMayBegin_iff h).mp ht
      rcases hdrive with e | e
      · exact hd e
      · exact e hc
    rw [arbitrate_ready hfree h, if_neg (by rw [hstop]; decide), hno, hm]
    rfl

/-! ### What the controller publishes (R100, R113) -/

/-- The lens controller of s, with all else, but for the message queue. -/
def messagesGone (s : State) : State := { s with lens := { s.lens with messages := [] } }

theorem lensChanged_reports (r s : State) : OnlyReports [.cursor 6] 0 s (lensChanged r s) := by
  unfold lensChanged
  split
  · exact (OnlyReports.refl s).mono (List.nil_subset _) (le_refl 0)
  · exact publish_reports s 6

theorem lensChanged_linesIn (r s : State) : LinesIn 1 s (lensChanged r s) := by
  unfold lensChanged
  split
  · exact (LinesIn.of_ports (s := s) (t := s)).mono (Nat.zero_le 1)
  · exact publish_linesIn s 6

theorem lensReply_reported (s : State) (m : LensMessage) (st : LensReplyStatus) (data : List Byte) :
    Reported s (lensReply s m st data) := plainNotice_reported s _ _ _

theorem flushMessages_reported (s : State) : Reported (messagesGone s) (flushMessages s) := by
  have hfold (ms : List LensMessage) (t : State) : Reported t (ms.foldl (fun s m => lensReply s m .noLens []) t) := by
    induction ms generalizing t with
    | nil => exact .refl t
    | cons m ms ih => exact (lensReply_reported t m .noLens []).trans (ih _)
  exact hfold _ _

theorem flushMessages_none {s : State} (h : s.lens.messages = []) : flushMessages s = s := by
  have hsame : ({ s with lens := { s.lens with messages := [] } } : State) = s := by rw [← h]
  rw [flushMessages, h, hsame]
  rfl

/-! ### Attachment (R102, R103) -/

theorem exec_lensPresentActive {s : State} (hphase : s.phase = .started) (h : s.lens.state = .absent) :
    exec .lensPresentActive s = .next (attachLens { s with lensPin := true }) := by
  refine congrArg Host.Outcome.next (if_pos ?_)
  simp [hphase, h]

theorem exec_lensPresentInactive {s : State} (h : s.lens.state ≠ .absent) :
    exec .lensPresentInactive s = .next (detachLens { s with lensPin := false }) := by
  show Host.Outcome.next (if s.lens.state = .absent then _ else _) = _
  rw [if_neg h]

theorem publish_identifying_lens (s : State) : (publish (identifying s) 6).lens = (identifying s).lens :=
  (publish_reported (identifying s) 6).field State.lens

/-- R102: with the line idle, identification begins with IDENT. -/
theorem attachLens_begins {s : State} (hfree : s.lens.exchange = none) :
    attachLens s = withExchange (publish (identifying s) 6) { (identifying s).lens with identPending := false } .ident [1] := by
  have hlens := publish_identifying_lens s
  rw [attachLens_eq, arbitrate_identifying (by rw [hlens]; exact hfree) (by rw [hlens]; rfl), hlens]
  rfl

/-- R103: what is left of the lens. -/
theorem detachLens_reported (s : State) : Reported (messagesGone (lensGone s)) (detachLens s) := by
  have hflight (t : State) : Reported t (flightAnswered s t) := by
    unfold flightAnswered
    split
    · split
      · exact lensReply_reported t _ _ _
      · exact .refl t
    · exact .refl t
  have hall := (lensChanged_reports s (lensGone s)).reported.trans (hflight (lensChanged s (lensGone s)))
  have hgone := hall.map messagesGone
  exact hgone.trans (flushMessages_reported _)

/-! ### The end of an exchange (R105, R106) -/

theorem exec_lensExchangeEnd {s : State} {x : Exchange} (bytes : List Byte) (h : s.lens.exchange = some x) :
    exec (.lensExchangeEnd bytes) s = .next (endExchange (s.advanceTo (x.since + 1000)) x bytes) := by
  show execLensExchangeEnd bytes s = _
  rw [execLensExchangeEnd, h]
  rfl

/-- R105: with a good reply, before the arbiter chooses. -/
def replyTaken (s : State) (x : Exchange) (r : Reply) : State :=
  replyHandedOn (lensChanged (s.advanceTo (x.since + 1000)) (goodReply (reportTaken (exchangeOver s x) r) x r)) x r

theorem exec_goodReply {s : State} {x : Exchange} {bytes : List Byte} {r : Reply} (h : s.lens.exchange = some x)
    (hr : judgeReply x.request bytes = some r) : exec (.lensExchangeEnd bytes) s = .next (arbitrate (replyTaken s x r)) := by
  rw [exec_lensExchangeEnd bytes h, endExchange_good hr]
  rfl

theorem replyTaken_reports {s : State} {x : Exchange} {r : Reply} (h : ∀ m, x.request ≠ .message m) :
    OnlyReports [.cursor 6] 0 (goodReply (reportTaken (exchangeOver s x) r) x r) (replyTaken s x r) := by
  rw [replyTaken, replyHandedOn.eq_def]
  split
  · next m hm => exact absurd hm (h m)
  · exact lensChanged_reports _ _

section
variable (s : State) {x : Exchange} (r : Reply)

theorem goodReply_identOk {r : Reply} (h : x.request = .ident) (hr : r.status = .ok) : goodReply s x r = { s with lens := { s.lens with
    state := .ready, info := some r.info, poll := .stopped, pollPending := false } } := by
  rw [goodReply, h]
  show identReplied s r = _
  rw [identReplied, hr]

theorem goodReply_identRefused {r : Reply} (h : x.request = .ident) (hr : r.status ≠ .ok) : goodReply s x r = { s with lens := { s.lens with
    state := .identifying, poll := .stopped, pollPending := false, identRetry := .running (s.now + 50000) } } := by
  rw [goodReply, h]
  show identReplied s r = _
  rw [identReplied]
  cases hs : r.status with
  | ok => exact absurd hs hr
  | busy => rfl
  | refused => rfl

theorem goodReply_statusPoll {s : State} (h : x.request = .status) (hs : s.lens.state = .unresponsive) :
    goodReply s x r = { s with lens := { s.lens with state := .ready, poll := .stopped, pollPending := false } } := by
  rw [goodReply, h]
  exact if_pos hs

theorem goodReply_status {s : State} (h : x.request = .status) (hs : s.lens.state ≠ .unresponsive) : goodReply s x r = s := by
  rw [goodReply, h]
  exact if_neg hs

theorem goodReply_stop (h : x.request = .stop) : goodReply s x r = s := by rw [goodReply, h]

theorem returnTarget_eq (t : Nat) : returnTarget s t = { s with lens := { s.lens with drive := s.lens.drive.or (some t) } } := by
  unfold returnTarget
  cases hd : s.lens.drive with
  | none => rfl
  | some d =>
    show s = { s with lens := { s.lens with drive := some d } }
    rw [← hd]

/-- R110, R111. -/
theorem goodReply_drive {target speed : Nat} (h : x.request = .drive target speed) :
    goodReply s x r = { s with lens := { s.lens with
      drive := if r.status = .busy then s.lens.drive.or (some target) else s.lens.drive
      stopPending := s.lens.stopPending || (x.judgeStop && r.report.moving) } } := by
  rw [goodReply, h]
  simp only [returnTarget_eq]
  cases x.judgeStop && r.report.moving <;> by_cases hbusy : r.status = .busy <;> simp [hbusy]

end

/-- R113: the code that a good reply's status has in LENS REPLY. -/
def replyCode (r : Reply) : Byte :=
  match r.status with
  | .ok => 0
  | .busy => 1
  | .refused => 2

theorem replyTaken_message {s : State} {x : Exchange} {r : Reply} {m : LensMessage} (h : x.request = .message m) :
    replyTaken s x r = hand (lensChanged (s.advanceTo (x.since + 1000)) (reportTaken (exchangeOver s x) r))
      (replyNotice m (replyCode r) r.data) := by
  rw [replyTaken, replyHandedOn, goodReply, h]
  rw [replyCode]
  cases r.status <;> rfl

/-- R105, R106: a timeout is counted, and the third is the last. -/
theorem exec_timeout {s t : State} {x : Exchange} {bytes : List Byte} (h : s.lens.exchange = some x)
    (hr : judgeReply x.request bytes = none) (ht : t = timedOut (exchangeOver s x) x) :
    exec (.lensExchangeEnd bytes) s = .next (arbitrate (if t.lens.state = .identifying ∨ t.lens.state = .ready then
      (if 3 ≤ t.lens.timeouts + 1 then loseLens { t with lens := { t.lens with timeouts := t.lens.timeouts + 1 } } x.request.code
        else { t with lens := { t.lens with timeouts := t.lens.timeouts + 1 } }) else t)) := by
  rw [exec_lensExchangeEnd bytes h, endExchange_timeout hr, ht]
  rfl

/-- R106: what the owner of a request other than a message does with a timeout. -/
theorem timedOut_quiet {s : State} {x : Exchange} (h : ∀ m, x.request ≠ .message m) :
    timedOut s x = { s with lens := { s.lens with
      drive := (match x.request with
        | .drive target _ => s.lens.drive.or (some target)
        | _ => s.lens.drive)
      identPending := s.lens.identPending || (decide (x.request = .ident) && decide (s.lens.state = .identifying)) } } := by
  obtain ⟨request, frame, since, judgeStop⟩ := x
  cases request with
  | message m => exact absurd rfl (h m)
  | ident =>
    by_cases hs : s.lens.state = .identifying
    · simp [timedOut, hs]
    · simp [timedOut, hs]
  | drive target speed => simp [timedOut, returnTarget_eq]
  | status => simp [timedOut]
  | stop => simp [timedOut]

/-- R106: whatever the request was, what its owner does with a timeout leaves all but the drive slot and a pending IDENT. -/
theorem timedOut_reported (s : State) (x : Exchange) : ∃ d i,
    Reported { s with lens := { s.lens with drive := d, identPending := i } } (timedOut s x) := by
  by_cases h : ∀ m, x.request ≠ .message m
  · rw [timedOut_quiet h]
    exact ⟨_, _, .refl _⟩
  · push Not at h
    obtain ⟨m, hm⟩ := h
    rw [timedOut, hm]
    exact ⟨s.lens.drive, s.lens.identPending, lensReply_reported s m .timeout []⟩

/-! ### The third timeout (R106) -/

/-- R106: the lens controller with an UNRESPONSIVE lens. -/
def lensLost (s : State) : State :=
  { s with lens := { s.lens with
    state := .unresponsive, drive := none, statusPending := false, stopPending := false, identPending := false,
    identRetry := .stopped, poll := .running (s.now + 50000) } }

/-- R105: the count of timeouts. -/
def timesOut (s : State) (n : Nat) : State := { s with lens := { s.lens with timeouts := n } }

theorem messagesGone_none {s : State} (h : s.lens.messages = []) : messagesGone s = s := by rw [messagesGone, ← h]

/-- R106: LENS FAULT. -/
def lensFaultNotice (l : Lens) (kind : Byte) : Notice :=
  { kind := .lensFault, window := 0xFF, seq := 0, subject := 0,
    details := [kind] ++
      (match l.report with
        | none => [0, 0, 0, 0]
        | some p => [1] ++ leBytes 2 p.position ++ [if p.moving then 1 else 0]) ++
      [if l.info.isSome then 1 else 0]
    fault := none }

theorem loseLens_eq (s : State) (kind : Byte) :
    loseLens s kind = hand (flushMessages (publish (lensLost s) 6))
      (lensFaultNotice (flushMessages (publish (lensLost s) 6)).lens kind) := by
  rfl

theorem flushed_reported (s : State) : Reported (messagesGone s) (flushMessages (publish s 6)) :=
  ((publish_reported s 6).map messagesGone).trans (flushMessages_reported _)

/-- R106: without waiting messages, LENS FAULT follows cursor page line 6. -/
theorem loseLens_quiet {s : State} (kind : Byte) (h : s.lens.messages = []) :
    loseLens s kind = hand (publish (lensLost s) 6) (lensFaultNotice (lensLost s).lens kind) := by
  have hlens : (publish (lensLost s) 6).lens = (lensLost s).lens := (publish_reported (lensLost s) 6).field State.lens
  rw [loseLens_eq, flushMessages_none (by rw [hlens]; exact h), hlens]

theorem loseLens_reported (s : State) (kind : Byte) : Reported (messagesGone (lensLost s)) (loseLens s kind) := by
  rw [loseLens_eq]
  exact (flushed_reported (lensLost s)).trans (hand_reports _ _ rfl).reported

end Sys2Proof.Machine

open Sys2Proof Sys2Proof.Machine

/-- Settles O48. -/
theorem lensPresentDecidesAttachment : Obligations.LensPresentDecidesAttachment := by
  intro s
  refine ⟨fun hphase habsent hfree => ?_, fun hpresent => ?_⟩
  · have hreported := publish_reported (identifying { s with lensPin := true }) 6
    refine ⟨_, exec_lensPresentActive hphase habsent, ?_⟩
    rw [attachLens_begins (s := { s with lensPin := true }) hfree]
    have hnow := hreported.field State.now
    exact ⟨hreported.field State.lensPin, rfl, rfl, rfl, rfl, congrArg
      (fun n => some ({ request := .ident, frame := [1, 1], since := n, judgeStop := false } : Exchange)) hnow,
      hreported.field State.shots, hreported.field State.focus⟩
  · have hreported := detachLens_reported { s with lensPin := false }
    exact ⟨_, exec_lensPresentInactive hpresent, hreported.field State.lensPin, hreported.field State.lens,
      hreported.field State.shots, hreported.field State.focus⟩

/-- Settles O50. -/
theorem lensTimersSendRequests : Obligations.LensTimersSendRequests := by
  intro s d hfree
  refine ⟨fun hstate hretry => ?_, fun hstate hpoll => ?_⟩
  · refine ⟨withExchange (s.advanceTo d) { s.lens with identRetry := .stopped, identPending := false } .ident [1], ?_, rfl, hstate,
      rfl, rfl, rfl, rfl⟩
    show execIdentRetryTimerExpiry s = _
    rw [execIdentRetryTimerExpiry, hretry]
    exact congrArg Host.Outcome.next (arbitrate_identifying
      (s := { s.advanceTo d with lens := { s.lens with identRetry := .stopped, identPending := true } }) hfree hstate)
  · have hexec : exec .pollTimerExpiry s = .next (if s.lens.info.isSome then
        withExchange (s.advanceTo d) { s.lens with pollPending := false, poll := .running (max s.now d + 50000) } .status [2]
      else withExchange (s.advanceTo d) { s.lens with pollPending := false, poll := .running (max s.now d + 50000) } .ident [1]) := by
      show execPollTimerExpiry s = _
      rw [execPollTimerExpiry, hpoll]
      show Host.Outcome.next (if s.lens.state = .unresponsive then pollDue (s.advanceTo d) else s) = _
      rw [if_pos hstate, pollDue]
      exact congrArg Host.Outcome.next (arbitrate_unresponsive (s := { s.advanceTo d with lens := { s.lens with
        pollPending := true, poll := .running (max s.now d + 50000) } }) hfree hstate)
    refine ⟨_, hexec, ?_⟩
    cases s.lens.info with
    | none => exact ⟨rfl, hstate, rfl, rfl, rfl, rfl⟩
    | some i => exact ⟨rfl, hstate, rfl, rfl, rfl, rfl⟩

/-- Settles O49. -/
theorem lensExchangeEndJudged : Obligations.LensExchangeEndJudged := by
  refine ⟨arbiterChose, fun s b x bytes hx hb => ⟨fun r v hr hv => ?_, fun hr => ⟨fun hstate hreq => ?_, fun hstate =>
    ⟨fun hcount => ⟨fun hreq => ?_, fun m hm => ?_⟩, fun hcount => ?_⟩⟩⟩⟩
  · have hexec := exec_goodReply hx hr
    have hreports (h : ∀ m, x.request ≠ .message m) := replyTaken_reports (s := s) (r := r) h
    have hv' : v = reportTaken b r := hv
    rw [← hb, ← hv'] at hreports
    have hnow : v.now = b.now := by rw [hv]
    have hstate : v.lens.state = s.lens.state := by rw [hv, hb]; rfl
    have hdrive : v.lens.drive = s.lens.drive := by rw [hv, hb]; rfl
    have hstop : v.lens.stopPending = s.lens.stopPending := by rw [hv, hb]; rfl
    refine ⟨fun hreq => ⟨_, hexec, fun hs => ?_, fun hs => ?_⟩, fun hreq => ⟨_, hexec, fun hs => ?_, fun hs => ?_⟩,
      fun target speed hreq => ⟨_, hexec, ?_⟩, fun hreq => ⟨_, hexec, ?_⟩, fun m code hreq hcode => ⟨_, hexec, ?_, ?_⟩⟩
    · have h := hreports (by rw [hreq]; nofun)
      rw [goodReply_identOk v hreq hs] at h
      exact h
    · have h := hreports (by rw [hreq]; nofun)
      rw [goodReply_identRefused v hreq hs] at h
      rw [← hnow]
      exact h
    · have h := hreports (by rw [hreq]; nofun)
      rw [goodReply_statusPoll r hreq (hstate.trans hs)] at h
      exact h
    · have h := hreports (by rw [hreq]; nofun)
      rw [goodReply_status r hreq (by rw [hstate]; exact hs)] at h
      exact h
    · have h := hreports (by rw [hreq]; nofun)
      rw [goodReply_drive v r hreq, hdrive, hstop] at h
      exact h
    · have h := hreports (by rw [hreq]; nofun)
      rw [goodReply_stop v r hreq] at h
      exact h
    · rw [replyTaken_message hreq, ← hb, ← hv']
      exact ((lensChanged_reports _ v).trans (hand_reports _ _ rfl))
    · obtain rfl : code = replyCode r := hcode
      rw [replyTaken_message hreq, ← hb, ← hv']
      have h := (lensChanged_linesIn (s.advanceTo (x.since + 1000)) v).hand_recorded (replyNotice m (replyCode r) r.data)
      rw [hv, hb] at h ⊢
      exact h
  · have hquiet : b = timedOut b x := by
      rcases hreq with h | h
      · rw [timedOut, h]
      · rw [timedOut, h]
        refine (if_neg ?_).symm
        rw [hb]
        show s.lens.state ≠ _
        rw [hstate]
        nofun
    have hb' : b.lens.state = .unresponsive := by rw [hb]; exact hstate
    rw [exec_timeout hx hr (hquiet.trans (by rw [hb])), if_neg (by rw [hb']; nofun)]
  · rw [exec_timeout hx hr rfl, timedOut_quiet hreq, ← hb, if_pos (by rw [hb]; exact hstate.symm), if_neg (by rw [hb]; show ¬3 ≤ s.lens.timeouts + 1; omega)]
    rw [hb]
    rfl
  · have ht : timedOut (exchangeOver s x) x = lensReply b m .timeout [] := by rw [timedOut, hm, ← hb]
    have hlens : (lensReply b m .timeout []).lens = b.lens := (lensReply_reported b m .timeout []).field State.lens
    refine ⟨_, exec_timeout hx hr ht.symm, ?_⟩
    rw [hlens, if_pos (by rw [hb]; exact hstate.symm), if_neg (by rw [hb]; show ¬3 ≤ s.lens.timeouts + 1; omega), hb]
    have hreports := hand_reports (exchangeOver s x) (replyNotice m 3 []) rfl
    refine ⟨hreports.map fun u => { u with lens := { (exchangeOver s x).lens with timeouts := s.lens.timeouts + 1 } }, ?_⟩
    exact (LinesIn.of_ports (s := exchangeOver s x) (t := exchangeOver s x)).hand_recorded (replyNotice m 3 [])
  · obtain ⟨d, i, htold⟩ := timedOut_reported b x
    have hlens : (timedOut b x).lens = { b.lens with drive := d, identPending := i } := htold.field State.lens
    have hstate' : (timedOut b x).lens.state = s.lens.state := by rw [hlens, hb]; rfl
    have hcount' : (timedOut b x).lens.timeouts + 1 = 3 := by rw [hlens, hb]; show s.lens.timeouts + 1 = 3; rw [hcount]
    refine ⟨_, exec_timeout hx hr (t := timedOut b x) (by rw [hb]), ?_⟩
    rw [if_pos (by rw [hstate']; exact hstate.symm), hcount', if_pos (le_refl 3)]
    have hlost := loseLens_reported (timesOut (timedOut b x) 3) x.request.code
    have hlostLens : (loseLens (timesOut (timedOut b x) 3) x.request.code).lens = (messagesGone (lensLost (timesOut b 3))).lens := by
      refine (hlost.field State.lens).trans ?_
      have hnow := htold.field State.now
      simp only [messagesGone, lensLost, timesOut, hlens, hnow]
    refine ⟨fun hpoll => ?_, hlostLens, (hlost.field State.now).trans (htold.field State.now), ?_, fun hmessages hreq => ?_⟩
    · show arbitrate (loseLens (timesOut (timedOut b x) 3) x.request.code) =
        loseLens (timesOut (timedOut b x) 3) x.request.code
      rw [arbitrate_unresponsive (by rw [hlostLens, hb]; rfl) (by rw [hlostLens]; rfl), hlostLens, if_neg]
      rw [hb]
      show ¬s.lens.pollPending = true
      rw [hpoll]
      decide
    · refine ((hlost.field State.shots).trans (htold.field State.shots)).trans ?_
      rw [hb]
      rfl
    · have hnone : (lensLost (timesOut b 3)).lens.messages = [] := by rw [hb]; exact hmessages
      have hsame : lensLost (timesOut (timedOut b x) 3) = lensLost (timesOut b 3) := by rw [timedOut_quiet hreq]; rfl
      have hlose : loseLens (timesOut (timedOut b x) 3) x.request.code =
          hand (publish (lensLost (timesOut b 3)) 6) (lensFaultNotice (lensLost (timesOut b 3)).lens x.request.code) := by
        rw [loseLens_quiet _ (by rw [timedOut_quiet hreq, hb]; exact hmessages), hsame]
      show OnlyReports _ _ { b with lens := (loseLens (timesOut (timedOut b x) 3) x.request.code).lens }
        (loseLens (timesOut (timedOut b x) 3) x.request.code) ∧ NoticeRecorded 1 _ s (loseLens (timesOut (timedOut b x) 3) x.request.code)
      rw [hlostLens, messagesGone_none hnone, hlose]
      refine ⟨(publish_reports _ 6).trans (hand_reports _ _ rfl), ?_⟩
      have hrecorded := (publish_linesIn (lensLost (timesOut b 3)) 6).hand_recorded
        (lensFaultNotice (lensLost (timesOut b 3)).lens x.request.code)
      rw [hb] at hrecorded ⊢
      exact hrecorded

end

section
/-! PROOFS. The Verify Unit: the lines that a pass accepts and takes in, the end of a pass, and card reads. Settles O25 and O29. -/

namespace Sys2Proof.Machine

set_option Elab.async false

/-! ### Contexts (R141) -/

/-- The only entry of a vector that meets a condition is the one that a search finds. -/
theorem find_only {α : Type} {n : Nat} (v : Vector α n) (p : α → Bool) {i : Fin n} (h : p (v.get i) = true)
    (hu : ∀ j, p (v.get j) = true → v.get j = v.get i) : v.toList.find? p = some (v.get i) := by
  have hget (j : Fin n) : v.get j = v.toList[j.val]'(by simp) := by simp [Vector.get]
  have hmem : v.get i ∈ v.toList := by
    rw [hget]
    exact List.getElem_mem _
  obtain ⟨a, ha⟩ := Option.isSome_iff_exists.mp (List.find?_isSome.mpr ⟨_, hmem, h⟩)
  obtain ⟨k, hk, rfl⟩ := List.mem_iff_getElem.mp (List.mem_of_find?_eq_some ha)
  have hk' : k < n := by simpa using hk
  have hfound := List.find?_some ha
  rw [← hget ⟨k, hk'⟩] at hfound
  rw [ha, ← hget ⟨k, hk'⟩, hu _ hfound]

/-- R142: the context of a pass. -/
def passContext (s : State) (pass : Nat) : Option VerifyContext :=
  (s.verify.contexts.toList.find? fun c => (c.map VerifyContext.pass) = some pass).join

theorem passContext_eq {s : State} {pass : Nat} {i : Fin 4} {c : VerifyContext} (h : s.verify.contexts.get i = some c)
    (hp : c.pass = pass) (hu : ∀ j d, s.verify.contexts.get j = some d → d.pass = pass → d = c) : passContext s pass = some c := by
  rw [passContext, find_only (i := i), h]
  · rfl
  · simp [h, hp]
  · intro j hj
    obtain ⟨d, hd, hdp⟩ := Option.map_eq_some_iff.mp (of_decide_eq_true hj)
    rw [hd, h, hu j d hd hdp]

theorem verifyOf_eq {s : State} {w : Fin 64} {i : Fin 4} {c : VerifyContext} (h : s.verify.contexts.get i = some c)
    (hw : c.window = w) (hu : ∀ j d, s.verify.contexts.get j = some d → d.window = w → d = c) : verifyOf s w = some c := by
  rw [verifyOf, find_only (i := i), h]
  · rfl
  · simp [h, hw]
  · intro j hj
    obtain ⟨d, hd, hdw⟩ := Option.map_eq_some_iff.mp (of_decide_eq_true hj)
    rw [hd, h, hu j d hd hdw]

theorem contexts_mem {s : State} {o : Option VerifyContext} : o ∈ s.verify.contexts.toList ↔ ∃ i, s.verify.contexts.get i = o := by
  rw [Vector.mem_toList_iff, Vector.mem_iff_getElem]
  exact ⟨fun ⟨i, hi, h⟩ => ⟨⟨i, hi⟩, h⟩, fun ⟨i, h⟩ => ⟨i.val, i.isLt, h⟩⟩

theorem verifyOf_some {s : State} {w : Fin 64} {c : VerifyContext} (h : verifyOf s w = some c) :
    c.window = w ∧ ∃ i, s.verify.contexts.get i = some c := by
  have ho := Option.join_eq_some_iff.mp h
  have hw := List.find?_some ho
  exact ⟨by simpa using hw, contexts_mem.mp (List.mem_of_find?_eq_some ho)⟩

theorem verifyOf_none {s : State} {w : Fin 64} (h : verifyOf s w = none) {j : Fin 4} {d : VerifyContext}
    (hd : s.verify.contexts.get j = some d) : d.window ≠ w := by
  intro hw
  have hmem : some d ∈ s.verify.contexts.toList := contexts_mem.mpr ⟨j, hd⟩
  have hsome := (List.find?_isSome (p := fun c : Option VerifyContext => decide (c.map VerifyContext.window = some w))).mpr
    ⟨_, hmem, by simp [hw]⟩
  obtain ⟨o, ho⟩ := Option.isSome_iff_exists.mp hsome
  rw [verifyOf, ho] at h
  obtain rfl : o = none := h
  have := List.find?_some ho
  simp at this

theorem modVerify_get (s : State) (w : Fin 64) (f : VerifyContext → VerifyContext) (j : Fin 4) :
    (modVerify s w f).verify.contexts.get j = (s.verify.contexts.get j).map fun c => if c.window = w then f c else c := by
  simp [modVerify, Vector.get]
  rfl

theorem modVerify_get_other {s : State} {w : Fin 64} (f : VerifyContext → VerifyContext) {j : Fin 4}
    (h : ∀ d, s.verify.contexts.get j = some d → d.window ≠ w) :
    (modVerify s w f).verify.contexts.get j = s.verify.contexts.get j := by
  rw [modVerify_get]
  cases hd : s.verify.contexts.get j with
  | none => rfl
  | some d => simp [h d hd]

/-- A change of a shot's context that leaves its window is a change of the context found for the shot. -/
theorem verifyOf_modVerify (s : State) (w : Fin 64) {f : VerifyContext → VerifyContext} (hf : ∀ c, (f c).window = c.window) :
    verifyOf (modVerify s w f) w = (verifyOf s w).map f := by
  have hwindow (c : VerifyContext) : (if c.window = w then f c else c).window = c.window := by
    split
    · exact hf c
    · rfl
  have hsame : (fun o : Option VerifyContext => decide (o.map VerifyContext.window = some w)) ∘
      (fun o : Option VerifyContext => o.map fun c => if c.window = w then f c else c) = fun o : Option VerifyContext => decide (o.map VerifyContext.window = some w) := by
    funext o
    cases o with
    | none => rfl
    | some c => simp [hwindow]
  unfold verifyOf modVerify
  dsimp only
  rw [Vector.toList_map, List.find?_map, hsame]
  cases h : s.verify.contexts.toList.find? fun o : Option VerifyContext => decide (o.map VerifyContext.window = some w) with
  | none => rfl
  | some o =>
    cases o with
    | none => rfl
    | some c =>
      have hw : c.window = w := by simpa using List.find?_some h
      simp [hw]

/-! ### Lines of a pass (R142, R143) -/

/-- R142: the data of line l is given. -/
def VerifyContext.given (l : Nat) (data : List Byte) (c : VerifyContext) : VerifyContext :=
  { c with accepted := c.accepted.map fun a => if a.line = l then { a with data := some data } else a }

/-- R142: the data of line l is given to the context of window w, which takes in what has returned. -/
def lineGiven (s : State) (w : Fin 64) (l : Nat) (data : List Byte) : State :=
  modVerify (modVerify s w (VerifyContext.given l data)) w VerifyContext.takeIn

/-- The context of a shot has been given a line and has taken in what has returned. -/
theorem verifyOf_lineGiven (s : State) (w : Fin 64) (l : Nat) (data : List Byte) :
    verifyOf (lineGiven s w l data) w = (verifyOf s w).map fun c => (c.given l data).takeIn := by
  rw [lineGiven, verifyOf_modVerify _ w (f := VerifyContext.takeIn) fun _ => rfl,
    verifyOf_modVerify _ w (f := VerifyContext.given l data) fun _ => rfl, Option.map_map]
  rfl

theorem giveLine_eq {s : State} {pass l : Nat} {c : VerifyContext} (data : List Byte) (hp : passContext s pass = some c)
    (hw : verifyOf s c.window = some c) :
    giveLine s pass l data =
      if ((c.given l data).takeIn.complete (s.shot c.window)) = true then
        completePass (lineGiven s c.window l data) c.window (crcFinish (c.given l data).takeIn.crc)
      else lineGiven s c.window l data := by
  have hfound : verifyOf (lineGiven s c.window l data) c.window = some (c.given l data).takeIn := by
    rw [verifyOf_lineGiven, hw]
    rfl
  rw [passContext] at hp
  unfold giveLine
  rw [hp]
  show advanceVerify (modVerify s c.window (VerifyContext.given l data)) c.window = _
  rw [advanceVerify]
  show (match verifyOf (lineGiven s c.window l data) c.window with
    | none => lineGiven s c.window l data
    | some d => if d.complete ((lineGiven s c.window l data).shot c.window) then
        completePass (lineGiven s c.window l data) c.window (crcFinish d.crc) else lineGiven s c.window l data) = _
  rw [hfound]
  rfl

theorem lineGiven_get {s : State} {i : Fin 4} {c : VerifyContext} (l : Nat) (data : List Byte)
    (h : s.verify.contexts.get i = some c) :
    (lineGiven s c.window l data).verify.contexts.get i = some (c.given l data).takeIn := by
  rw [lineGiven, modVerify_get, modVerify_get, h]
  simp [VerifyContext.given]

theorem lineGiven_get_other {s : State} {w : Fin 64} {j : Fin 4} (l : Nat) (data : List Byte)
    (h : ∀ d, s.verify.contexts.get j = some d → d.window ≠ w) :
    (lineGiven s w l data).verify.contexts.get j = s.verify.contexts.get j := by
  have hfirst := modVerify_get_other (VerifyContext.given l data) h
  rw [lineGiven, modVerify_get_other _ (by rw [hfirst]; exact h), hfirst]

/-- R142: the data waits behind that of an earlier line. -/
theorem given_takeIn_waits {c : VerifyContext} {a : AcceptedLine} {more : List AcceptedLine} {l : Nat} (data : List Byte)
    (h : c.accepted = a :: more) (hl : a.line ≠ l) (hd : a.data = none) :
    (c.given l data).takeIn = { c with
      accepted := c.accepted.map fun b => if b.line = l then { b with data := some data } else b } := by
  have hhead : (c.given l data).accepted = a :: more.map fun b => if b.line = l then { b with data := some data } else b := by
    rw [VerifyContext.given, h]
    simp [hl]
  rw [VerifyContext.takeIn, hhead, takeLines, hd]
  simp only [h, List.map_cons, if_neg hl]
  rfl

theorem takeLines_waiting (r : BitVec 32) {as : List AcceptedLine} (h : ∀ a ∈ as, a.data = none) : takeLines r as = (r, as) := by
  cases as with
  | nil => rfl
  | cons a as => rw [takeLines, h a List.mem_cons_self]

/-- R142: the data of the first waiting line is taken in, and those behind it wait for theirs. -/
theorem given_takeIn_first {c : VerifyContext} {a : AcceptedLine} {more : List AcceptedLine} {l : Nat} (data : List Byte)
    (h : c.accepted = a :: more) (hl : a.line = l) (hmore : ∀ b ∈ more, b.line ≠ l ∧ b.data = none) :
    (c.given l data).takeIn = { c with crc := crcBytes c.crc data, accepted := more } := by
  have hrest : (more.map fun b => if b.line = l then { b with data := some data } else b) = more := by
    refine (List.map_congr_left fun b hb => if_neg (hmore b hb).1).trans (List.map_id _)
  have hhead : (c.given l data).accepted = { a with data := some data } :: more := by
    rw [VerifyContext.given, h, List.map_cons, if_pos hl, hrest]
  have htake : takeLines c.crc ({ a with data := some data } :: more) = (crcBytes c.crc data, more) :=
    takeLines_waiting (crcBytes c.crc data) fun b hb => (hmore b hb).2
  rw [VerifyContext.takeIn, hhead, show (c.given l data).crc = c.crc from rfl, htake]
  rfl

theorem complete_open {c : VerifyContext} {x : Shot} (h : c.accepted ≠ [] ∨ c.next * 64 ≠ x.rawLength) : ¬c.complete x = true := by
  rw [VerifyContext.complete, Bool.and_eq_true, List.isEmpty_iff, decide_eq_true_eq, not_and_or]
  exact h

/-! ### The end of a pass (R143, R148) -/

@[simp] theorem State.setShot_setShot (s : State) (w : Fin 64) (x y : Shot) : (s.setShot w x).setShot w y = s.setShot w y := by
  have h : (s.shots.set w.val x).set w.val y = s.shots.set w.val y := Vector.set_set ..
  simp only [State.setShot, h]

/-- R143: a shot's record after a pass. -/
def passJudged (x : Shot) (good : Bool) : Shot :=
  if good then { x with verify := .matched } else { x with verify := .mismatch, card := .failed }

theorem releasable_failed {x : Shot} (h : x.card = .failed) : x.releasable = false := by simp [Shot.releasable, h]

/-- R143, R148: a pass has ended, and the notice n tells how. -/
def passEnded (s : State) (w : Fin 64) (good : Bool) (n : Notice) : State :=
  freeVerify (hand (mirror (s.modShot w fun x => passJudged x good) w [5]) n) w

theorem passEnded_reports (s : State) (w : Fin 64) (good : Bool) {n : Notice} (h : n.fault = none) :
    OnlyReports [.mirror w 5, .cursor 3] 1 (freeVerify (s.modShot w fun x => passJudged x good) w) (passEnded s w good n) :=
  ((mirror_reports _ w [5]).trans (hand_reports _ n h)).map fun u => freeVerify u w

theorem completePass_eq {s : State} {w : Fin 64} {v : BitVec 32} {o : Origin} (value : BitVec 32) (h : (s.shot w).crc = some (v, o)) :
    ∃ n : Notice, n.fault = none ∧ n.kind = (if value = v then .verified else .verifyMismatch) ∧
      completePass s w value = passEnded s w (decide (value = v)) n := by
  rw [completePass, h]
  by_cases hv : value = v
  · simp only [if_pos hv, decide_eq_true hv]
    exact ⟨_, rfl, rfl, rfl⟩
  · have htwice : (setVerify s w .mismatch).modShot w (fun x => { x with card := .failed }) = s.modShot w fun x => passJudged x false := by
      simp only [setVerify, State.modShot, State.shot_setShot_same, State.setShot_setShot]
      rfl
    simp only [if_neg hv, decide_eq_false hv, htwice]
    refine ⟨_, ?_, ?_, releaseCheck_kept fun _ => ?_⟩
    rotate_left 2
    · generalize hn : shotNotice _ w .verifyMismatch 0 _ = n
      have hend : _ = (s.modShot w fun x => passJudged x false).shot w :=
        (passEnded_reports s w false (n := n) (by rw [← hn]; rfl)).reported.field fun u => u.shot w
      have hshot : (passEnded s w false n).shot w = passJudged (s.shot w) false := hend.trans (State.shot_modShot_same s w _)
      show ((passEnded s w false n).shot w).releasable = false
      rw [hshot]
      exact releasable_failed rfl
    · rfl
    · rfl

theorem freeVerify_get (s : State) (w : Fin 64) (j : Fin 4) :
    (freeVerify s w).verify.contexts.get j = (s.verify.contexts.get j).filter fun c => c.window ≠ w := by
  simp [freeVerify, Vector.get]
  rfl

theorem noticeBytes_kind (n : Notice) (number : Nat) : (noticeBytes n number).getD 2 0 = BitVec.ofNat 8 n.kind.code := rfl

theorem exec_readDataReturn {s : State} {k : Nat} {q : PassRead} {pass l : Nat} (h : s.port.passFlight[k]? = some q)
    (ha : q.accepted = some (pass, l)) {u : State} (hu : u = { s with
        port := { s.port with passFlight := s.port.passFlight.eraseIdx k }
        link := if q.respond then
            { s.link with ready := s.link.ready ++ [{ txn := q.txn, data := q.data, ok := true }] }
          else s.link }) : exec (.readDataReturn k) s = .next (giveLine u pass l q.data) := by
  show execReadDataReturn k s = _
  rw [execReadDataReturn, h]
  simp only [ha]
  rw [hu]
  cases q.respond <;> rfl

/-! ### Card reads (R140 to R142) -/

/-- R140: a shot's record once a card read is counted. -/
def cardCounted (x : Shot) : Shot :=
  { x with
    cardBytes := min (x.cardBytes + 64) (2 ^ 32 - 1)
    card := if x.card = .pending then .reading else x.card }

theorem countCardRead_eq (s : State) (w : Fin 64) : countCardRead s w = s.setShot w (cardCounted (s.shot w)) := rfl

@[simp] theorem verifyOf_setShot (s : State) (w v : Fin 64) (x : Shot) : verifyOf (s.setShot w x) v = verifyOf s v := rfl

/-- R142: the accepted line waits for its data. -/
def VerifyContext.accepting (l : Nat) (c : VerifyContext) : VerifyContext :=
  { c with next := l + 1, accepted := c.accepted ++ [{ line := l, data := none }] }

theorem verifyOf_accepting (s : State) (w : Fin 64) (l : Nat) :
    verifyOf (modVerify s w (VerifyContext.accepting l)) w = (verifyOf s w).map (VerifyContext.accepting l) :=
  verifyOf_modVerify s w fun _ => rfl

theorem acceptLine_none {s : State} {w : Fin 64} (l : Nat) (h : verifyOf s w = none) : acceptLine s w l = (s, none) := by
  rw [acceptLine, h]

theorem acceptLine_next {s : State} {w : Fin 64} {l : Nat} {c : VerifyContext} (h : verifyOf s w = some c) (hl : c.next = l) :
    acceptLine s w l = (modVerify s w (VerifyContext.accepting l), some (c.pass, l)) := by
  rw [acceptLine, h]
  exact if_pos hl

theorem acceptLine_other {s : State} {w : Fin 64} {l : Nat} {c : VerifyContext} (h : verifyOf s w = some c) (hl : c.next ≠ l) :
    acceptLine s w l = (s, none) := by
  rw [acceptLine, h]
  exact if_neg hl

section
variable {s : State} {w : Fin 64} {o : Nat}

theorem startPass_bound (h : (verifyOf s w).isSome) : startPass s w = s := if_pos h

/-- R142: a card read that starts nothing is accepted by the shot's pass or by none. -/
theorem cardAccepted_later (hreading : (cardCounted (s.shot w)).card = .reading) (h : o ≠ 0 ∨ (verifyOf s w).isSome) :
    cardAccepted s w o = acceptLine (s.setShot w (cardCounted (s.shot w))) w (o / 64) := by
  have hshot : (countCardRead s w).shot w = cardCounted (s.shot w) := State.shot_setShot_same _ _ _
  unfold cardAccepted
  simp only [hshot, hreading, decide_true, Bool.true_and, if_true]
  rw [countCardRead_eq]
  rcases h with h | h
  · rw [if_neg (by simpa using h)]
    rfl
  · rw [startPass_bound (s := s.setShot w (cardCounted (s.shot w))) h, ite_self]
    rfl

theorem cardAccepted_idle (h : (cardCounted (s.shot w)).card ≠ .reading) :
    cardAccepted s w o = (s.setShot w (cardCounted (s.shot w)), none) := by
  have hshot : (countCardRead s w).shot w = cardCounted (s.shot w) := State.shot_setShot_same _ _ _
  unfold cardAccepted
  simp only [hshot, h, decide_false, Bool.false_and, Bool.false_eq_true, if_false]
  rfl

theorem cardAccepted_first (hreading : (cardCounted (s.shot w)).card = .reading) :
    cardAccepted s w 0 = acceptLine (startPass (s.setShot w (cardCounted (s.shot w))) w) w 0 := by
  have hshot : (countCardRead s w).shot w = cardCounted (s.shot w) := State.shot_setShot_same _ _ _
  unfold cardAccepted
  simp only [hshot, hreading, decide_true, Bool.true_and, if_true]
  rfl

/-- R142: a card read beyond offset 0, or with the card not READING, that meets no pass is counted and no more. -/
theorem cardAccepted_nothing (hnone : verifyOf s w = none) (h : o ≠ 0 ∨ (cardCounted (s.shot w)).card ≠ .reading) :
    cardAccepted s w o = (s.setShot w (cardCounted (s.shot w)), none) := by
  by_cases hreading : (cardCounted (s.shot w)).card = .reading
  · have ho := h.resolve_right fun h => h hreading
    rw [cardAccepted_later hreading (.inl ho), acceptLine_none (s := s.setShot w (cardCounted (s.shot w))) _ hnone]
  · exact cardAccepted_idle hreading

/-- R141: without a CRC or a free context the shot is UNVERIFIED. -/
theorem startPass_unverified (hnone : verifyOf s w = none) (h : (s.shot w).crc = none ∨ freeContext s = none) :
    startPass s w = setVerify s w .unverified := by
  rw [startPass, hnone]
  rcases h with h | h
  · rw [h]
    rfl
  · rw [h]
    cases (s.shot w).crc <;> rfl

/-- R141: the context with which a pass starts. -/
def freshContext (s : State) (w : Fin 64) : VerifyContext :=
  { window := w, seq := (s.shot w).seq, pass := s.verify.nextPass, next := 0, crc := crcInit, accepted := [] }

/-- R141: a pass has started in the context at place i. -/
def passStarted (s : State) (w : Fin 64) (i : Nat) : State :=
  setVerify { s with verify := {
    contexts := s.verify.contexts.setIfInBounds i (some (freshContext s w)), nextPass := s.verify.nextPass + 1 } } w .running

theorem startPass_starts {i : Nat} (hnone : verifyOf s w = none) (hcrc : (s.shot w).crc.isSome = true) (hfree : freeContext s = some i) :
    startPass s w = passStarted s w i := by
  obtain ⟨v, hv⟩ := Option.isSome_iff_exists.mp hcrc
  rw [startPass, hnone, hv, hfree]
  rfl

theorem passStarted_shot (s : State) (w : Fin 64) (i : Nat) : (passStarted s w i).shot w = { s.shot w with verify := .running } :=
  State.shot_modShot_same _ _ _

theorem passStarted_get (i : Nat) (j : Fin 4) :
    (passStarted s w i).verify.contexts.get j = if i = j.val then some (freshContext s w) else s.verify.contexts.get j := by
  show (s.verify.contexts.setIfInBounds i (some (freshContext s w))).get j = _
  exact Vector.getElem_setIfInBounds ..

theorem verifyOf_passStarted {i : Nat} (hnone : verifyOf s w = none) (hfree : freeContext s = some i) :
    verifyOf (passStarted s w i) w = some (freshContext s w) := by
  have hlt : i < 4 := by
    have := List.findIdx?_eq_some_iff_getElem.mp hfree
    simpa using this.1
  refine verifyOf_eq (i := ⟨i, hlt⟩) (by rw [passStarted_get, if_pos rfl]) rfl fun j d hd hw => ?_
  rw [passStarted_get] at hd
  split at hd
  · exact (Option.some.inj hd).symm
  · exact absurd hw (verifyOf_none hnone hd)

/-- R141, R142: the read at offset 0 that starts a pass is its first line. -/
theorem cardAccepted_starts {i : Nat} (hreading : (cardCounted (s.shot w)).card = .reading) (hnone : verifyOf s w = none)
    (hcrc : (s.shot w).crc.isSome = true) (hfree : freeContext s = some i) :
    cardAccepted s w 0 = (modVerify (passStarted (s.setShot w (cardCounted (s.shot w))) w i) w (VerifyContext.accepting 0),
      some (s.verify.nextPass, 0)) := by
  have hbound := verifyOf_passStarted (s := s.setShot w (cardCounted (s.shot w))) hnone hfree
  rw [cardAccepted_first hreading, startPass_starts (s := s.setShot w (cardCounted (s.shot w))) hnone
    (by rw [State.shot_setShot_same]; exact hcrc) hfree, acceptLine_next (l := 0) hbound rfl]
  rfl

/-- R140 to R142: what a card read may change, before it is published. -/
structure CardCounted (s a : State) (w : Fin 64) : Prop where
  blocks : { a with shots := s.shots, verify := s.verify } = s
  others : ∀ v, v ≠ w → a.shot v = s.shot v
  card : (a.shot w).card = (cardCounted (s.shot w)).card

theorem CardCounted.field {α : Type} {a : State} (h : CardCounted s a w) (g : State → α)
    (hg : ∀ (u : State) (xs : Vector Shot 64) (v : VerifyUnit), g { u with shots := xs, verify := v } = g u := by intros; rfl) :
    g a = g s := by
  rw [← hg a s.shots s.verify, h.blocks]

theorem CardCounted.verifies {a b : State} (h : CardCounted s a w) (blocks : { b with shots := a.shots, verify := a.verify } = a)
    (others : ∀ v, v ≠ w → b.shot v = a.shot v) (card : (b.shot w).card = (a.shot w).card) : CardCounted s b w where
  blocks := by
    have e := congrArg (fun u : State => { u with shots := s.shots, verify := s.verify }) blocks
    exact e.trans h.blocks
  others v hv := (others v hv).trans (h.others v hv)
  card := card.trans h.card

theorem setVerify_counted {a : State} (h : CardCounted s a w) (v : VerifyUnit) (x : VerifyStatus) :
    CardCounted s (setVerify { a with verify := v } w x) w :=
  h.verifies rfl (fun _ hv => State.shot_setShot_other _ _ _ _ hv) (by rw [setVerify, State.shot_modShot_same]; rfl)

theorem startPass_counted {a : State} (h : CardCounted s a w) : CardCounted s (startPass a w) w := by
  unfold startPass
  split
  · exact h
  · split
    · exact setVerify_counted h _ _
    · exact setVerify_counted h a.verify _

theorem acceptLine_counted {a : State} (h : CardCounted s a w) (l : Nat) : CardCounted s (acceptLine a w l).1 w := by
  unfold acceptLine
  split
  · exact h
  · split
    · exact h.verifies rfl (fun _ _ => rfl) rfl
    · exact h

theorem cardAccepted_counted : CardCounted s (cardAccepted s w o).1 w := by
  have hcounted : CardCounted s (countCardRead s w) w :=
    ⟨rfl, fun _ hv => State.shot_setShot_other _ _ _ _ hv, congrArg Shot.card (State.shot_setShot_same _ _ _)⟩
  unfold cardAccepted
  dsimp only
  have hstarted (b : Bool) : CardCounted s (if b then startPass (countCardRead s w) w else countCardRead s w) w := by
    split
    · exact startPass_counted hcounted
    · exact hcounted
  split
  · exact acceptLine_counted (hstarted _) _
  · exact hstarted _

theorem releasable_reading {x : Shot} (h : x.card = .reading) : x.releasable = false := by simp [Shot.releasable, h]

/-- R45: a card read is published; that it makes the shot READING releases nothing. -/
theorem cardRead_reported : Reported (cardAccepted s w o).1 (cardRead s w o).1 ∧ (cardRead s w o).2 = (cardAccepted s w o).2 := by
  have hcard := (cardAccepted_counted (s := s) (w := w) (o := o)).card
  rw [cardRead_eq]
  generalize (cardAccepted s w o).1 = a at hcard ⊢
  have hmirrored (b : Bool) : Reported a (if b then mirror a w [5] else a) := .ite (fun _ => mirror_reported a w [5]) fun _ => .refl a
  refine ⟨?_, rfl⟩
  dsimp only
  split
  · next hchanged =>
    rw [releaseCheck_kept]
    · exact hmirrored _
    · intro _
      rw [(hmirrored _).field fun u => u.shot w]
      refine releasable_reading ?_
      rw [hcard] at hchanged ⊢
      by_cases hp : (s.shot w).card = .pending
      · exact if_pos hp
      · exact absurd (if_neg hp).symm hchanged
  · exact hmirrored _

end

/-! ### A card read that is taken (R4, R142) -/

/-- R4: a card read of shot space at window offset o is served. -/
def cardServed (s : State) (r : Request) (rest : List Request) (w : Fin 64) (o : Nat) : State :=
  serveRead (takenRead s rest) r.txn (s.rawEntry w (o / Config.granule)) o

/-- R142: the read that was just taken, at the tail of the pass-through queue, carries the line that a pass has accepted. -/
theorem acceptRead_entry {s : State} {es : List PassEntry} {addr : Nat} {txn : BitVec 5} {data : List Byte} {k : Nat}
    (token : Option (Nat × Nat))
    (h : s.port.pass = es ++ [{ addr := addr, kind := .read { txn := txn, data := data, respond := true, accepted := none }, entry := k }]) :
    acceptRead s token false = { s with port := { s.port with pass := es ++
      [{ addr := addr, kind := .read { txn := txn, data := data, respond := true, accepted := token }, entry := k }] } } := by
  cases token with
  | none =>
    rw [← h]
    rfl
  | some p =>
    show ({ s with port := { s.port with pass := s.port.pass.dropLast ++ s.port.pass.getLast?.toList.map _ } } : State) = _
    rw [h, List.dropLast_concat, List.getLast?_concat]
    rfl

/-- R51: window offsets of lines are multiples of 64. -/
theorem shot_offset_aligned {r : Request} {w : Fin 64} {o : Nat} (h : classify (lineAddr r) = .shot w o) : o / 64 * 64 = o := by
  rw [classify] at h
  by_cases h1 : Config.unassignedSpace ≤ lineAddr r
  · rw [if_pos h1] at h
    cases h
  rw [if_neg h1] at h
  by_cases h2 : Config.previewSpace ≤ lineAddr r
  · rw [if_pos h2] at h
    cases h
  rw [if_neg h2] at h
  by_cases h3 : Config.shotSpace ≤ lineAddr r
  · rw [if_pos h3] at h
    have ho := (Space.shot.inj h).2
    have hline : 64 ∣ lineAddr r := Nat.dvd_mul_left _ _
    have hbase : 64 ∣ Config.shotSpace := by decide
    have hdvd : 64 ∣ (lineAddr r - Config.shotSpace) % 2 ^ 27 := (Nat.dvd_mod_iff (by decide)).mpr (Nat.dvd_sub hline hbase)
    rw [ho] at hdvd
    exact Nat.div_mul_cancel hdvd
  · rw [if_neg h3] at h
    cases h

/-- R142: the zeros of an empty entry are taken in with the line that an otherwise empty pass has just accepted. -/
theorem giveLine_zeros {s t : State} {w : Fin 64} {c : VerifyContext} {l : Nat} (h : verifyOf s w = some c)
    (hcontexts : t.verify.contexts = (modVerify s w (VerifyContext.accepting l)).verify.contexts) (hempty : c.accepted = [])
    (honly : ∀ i b, s.verify.contexts.get i = some b → b.pass = c.pass → b = c) (hopen : (l + 1) * 64 ≠ (t.shot w).rawLength) :
    giveLine t c.pass l zeroLine = lineGiven t w l zeroLine ∧
      verifyOf (lineGiven t w l zeroLine) w = some { c with next := l + 1, crc := crcBytes c.crc zeroLine } := by
  obtain ⟨hwindow, i, hi⟩ := verifyOf_some h
  have haccepting : (c.accepting l).accepted = [{ line := l, data := none }] := by rw [VerifyContext.accepting, hempty]; rfl
  have htaken := given_takeIn_first (l := l) zeroLine haccepting rfl nofun
  have hfound : verifyOf t w = some (c.accepting l) := by
    rw [verifyOf, hcontexts]
    refine (verifyOf_accepting s w l).trans ?_
    rw [h]
    rfl
  have hget : t.verify.contexts.get i = some (c.accepting l) := by
    rw [hcontexts, modVerify_get, hi, ← hwindow]
    simp
  have hpass : passContext t c.pass = some (c.accepting l) := by
    refine passContext_eq hget rfl fun j d hd hp => ?_
    rw [hcontexts, modVerify_get] at hd
    obtain ⟨b, hb, rfl⟩ := Option.map_eq_some_iff.mp hd
    have hsame : b.pass = c.pass := by
      rw [← hp]
      split <;> rfl
    rw [honly j b hb hsame, if_pos hwindow]
  have hwindow' : (c.accepting l).window = w := hwindow
  have hgive := giveLine_eq (l := l) zeroLine hpass (by rw [hwindow']; exact hfound)
  rw [hwindow', htaken, if_neg (complete_open (.inr hopen))] at hgive
  refine ⟨hgive, ?_⟩
  rw [verifyOf_lineGiven, hfound, Option.map_some, htaken, VerifyContext.accepting, ← hempty]

section
variable {s : State} {r : Request} {rest : List Request} {w : Fin 64} {o : Nat}

theorem cardServed_field {α : Type} (g : State → α)
    (hg : ∀ (u : State) (p : MemoryPort) (l : LinkPort), g { u with port := p, link := l } = g u := by intros; rfl) :
    g (cardServed s r rest w o) = g s :=
  (serveRead_field (takenRead s rest) r.txn _ o g hg).trans (hg s s.port { s.link with waiting := rest })

theorem exec_cardRead (htakes : TakesRead s r rest) (hspace : classify (lineAddr r) = .shot w o) (hclass : sourceClass r.tag = .card)
    (hsealed : (s.shot w).state = .sealed) (hlen : o < (s.shot w).rawLength) :
    exec .takeRead s = .next (acceptRead (cardRead (cardServed s r rest w o) w o).1 (cardAccepted (cardServed s r rest w o) w o).2
      (s.rawEntry w (o / Config.granule)).isNone) := by
  rw [exec_takeRead htakes, hclass, readTaken_shot _ _ hspace, shotRead_served (s := takenRead s rest) (c := .card) _ _ ?_ ?_ hlen,
    ← (cardRead_reported (s := cardServed s r rest w o) (w := w) (o := o)).2]
  · rfl
  · exact fun h => nomatch hsealed.symm.trans h
  · show readKey (s.shot w).state .card = true
    rw [hsealed]
    rfl

/-- Windows, pool and maps around a card read. -/
structure CardFrame (s t : State) (w : Fin 64) : Prop where
  others : ∀ v, v ≠ w → t.shot v = s.shot v
  pool : t.pool = s.pool
  maps : t.maps = s.maps

theorem cardRead_frame : CardFrame s (cardRead (cardServed s r rest w o) w o).1 w := by
  have hreported := (cardRead_reported (s := cardServed s r rest w o) (w := w) (o := o)).1
  have hcounted := cardAccepted_counted (s := cardServed s r rest w o) (w := w) (o := o)
  refine ⟨fun v hv => ?_, ?_, ?_⟩
  · exact ((hreported.field fun u => u.shot v).trans (hcounted.others v hv)).trans (cardServed_field fun u => u.shot v)
  · exact ((hreported.field State.pool).trans (hcounted.field State.pool)).trans (cardServed_field State.pool)
  · exact ((hreported.field State.maps).trans (hcounted.field State.maps)).trans (cardServed_field State.maps)

theorem cardRead_ports : (cardRead (cardServed s r rest w o) w o).1.port.pass = (cardServed s r rest w o).port.pass ∧
    (cardRead (cardServed s r rest w o) w o).1.link = (cardServed s r rest w o).link := by
  have hreported := (cardRead_reported (s := cardServed s r rest w o) (w := w) (o := o)).1
  have hcounted := cardAccepted_counted (s := cardServed s r rest w o) (w := w) (o := o)
  exact ⟨(hreported.portField MemoryPort.pass).trans (hcounted.field fun u => u.port.pass),
    (hreported.field State.link).trans (hcounted.field State.link)⟩

/-- R142: from a mapped granule the accepted line's data comes with the read. -/
theorem cardRead_mapped {n : Nat} (hn : s.rawEntry w (o / Config.granule) = some n) (token : Option (Nat × Nat)) :
    ∃ t, acceptRead (cardRead (cardServed s r rest w o) w o).1 token false = t ∧ CardFrame s t w ∧
      t.shot w = (cardAccepted (cardServed s r rest w o) w o).1.shot w ∧
      t.verify = (cardAccepted (cardServed s r rest w o) w o).1.verify ∧
      t.port.pass = s.port.pass ++ [{
        addr := n * Config.granule + o % Config.granule
        kind := .read {
          txn := r.txn, data := s.mem.readLine (n * Config.granule + o % Config.granule), respond := true, accepted := token }
        entry := s.port.nextEntry }] := by
  have hreported := (cardRead_reported (s := cardServed s r rest w o) (w := w) (o := o)).1
  have hpass := cardRead_ports (s := s) (r := r) (rest := rest) (w := w) (o := o)
  have hserved : (cardServed s r rest w o).port.pass = _ :=
    ((serveRead_ports (takenRead s rest) r.txn (s.rawEntry w (o / Config.granule)) o).2.1 n hn).2
  obtain ⟨hothers, hpool, hmaps⟩ := cardRead_frame (s := s) (r := r) (rest := rest) (w := w) (o := o)
  exact ⟨_, acceptRead_entry token (hpass.1.trans hserved), ⟨hothers, hpool, hmaps⟩, hreported.field fun u => u.shot w,
    hreported.field State.verify, rfl⟩

/-- R4: from an empty entry the response of zeros is ready at once. -/
theorem cardRead_zeros (hn : s.rawEntry w (o / Config.granule) = none) :
    (cardRead (cardServed s r rest w o) w o).1.port.pass = s.port.pass ∧
      (cardRead (cardServed s r rest w o) w o).1.link = { s.link with
        waiting := rest, ready := s.link.ready ++ [{ txn := r.txn, data := List.replicate 64 0, ok := true }] } := by
  obtain ⟨hpass, hlink⟩ := cardRead_ports (s := s) (r := r) (rest := rest) (w := w) (o := o)
  obtain ⟨hport, hready⟩ := (serveRead_ports (takenRead s rest) r.txn (s.rawEntry w (o / Config.granule)) o).2.2 hn
  exact ⟨hpass.trans (congrArg MemoryPort.pass hport), hlink.trans hready⟩

end

end Sys2Proof.Machine

open Sys2Proof Sys2Proof.Machine

/-- Settles O29. -/
theorem responsesReturn : Obligations.ResponsesReturn := by
  intro s
  refine ⟨fun k q u hq hu => ⟨fun hnone => ?_, fun pass l i c ha hc hp honly => ?_⟩, fun x more hready => ?_⟩
  · show execReadDataReturn k s = _
    rw [execReadDataReturn, hq]
    simp only [hnone]
    rw [hu]
    cases q.respond <;> rfl
  · have hverify : u.verify = s.verify := by rw [hu]
    have hshots : u.shots = s.shots := by rw [hu]
    have hnotice : u.notice = s.notice := by rw [hu]
    have hmem : u.mem = s.mem ∧ u.caSel = s.caSel := by rw [hu]; exact ⟨rfl, rfl⟩
    have hport : u.port.work = s.port.work ∧ u.port.writes = s.port.writes := by rw [hu]; exact ⟨rfl, rfl⟩
    have hexec := exec_readDataReturn hq ha hu
    clear hu
    have hc' : u.verify.contexts.get i = some c := by rw [hverify]; exact hc
    have hother (j : Fin 4) (hj : j ≠ i) : ∀ d, u.verify.contexts.get j = some d → d.window ≠ c.window := fun d hd =>
      (honly j d hj (by rw [← hverify]; exact hd)).2
    have hsame (j : Fin 4) (d : VerifyContext) (hd : u.verify.contexts.get j = some d) (h : d.pass = pass ∨ d.window = c.window) :
        d = c := by
      by_cases hj : j = i
      · rw [hj, hc'] at hd
        exact (Option.some.inj hd).symm
      · obtain ⟨h1, h2⟩ := honly j d hj (by rw [← hverify]; exact hd)
        exact absurd h (by simp [h1, h2])
    have hgive := giveLine_eq (l := l) q.data (passContext_eq hc' hp fun j d hd h => hsame j d hd (.inl h))
      (verifyOf_eq hc' rfl fun j d hd h => hsame j d hd (.inr h))
    have hblocks : { lineGiven u c.window l q.data with verify := s.verify } = u := by rw [← hverify]; rfl
    have hkept (j : Fin 4) (hj : j ≠ i) :
        (lineGiven u c.window l q.data).verify.contexts.get j = s.verify.contexts.get j := by
      rw [lineGiven_get_other l q.data (hother j hj), hverify]
    have hgiven := lineGiven_get l q.data hc'
    refine ⟨fun a more hacc hl hd => ?_, fun a more hacc hl hmore => ⟨fun hopen => ?_, fun v o hlast hend hcrc => ?_⟩⟩
    · have hwaits := given_takeIn_waits q.data hacc hl hd
      rw [if_neg (by rw [hwaits]; simp [VerifyContext.complete, hacc])] at hgive
      rw [hexec, hgive]
      rw [hwaits] at hgiven
      exact ⟨_, rfl, hblocks, hgiven, hkept⟩
    · have hfirst := given_takeIn_first q.data hacc hl hmore
      rw [if_neg (by
        rw [hfirst, State.shot, hshots]
        exact complete_open (hopen.imp_right fun h => h))] at hgive
      rw [hexec, hgive]
      rw [hfirst] at hgiven
      exact ⟨_, rfl, hblocks, hgiven, hkept⟩
    · have hfirst := given_takeIn_first q.data hacc hl hmore
      have hcrc' : ((lineGiven u c.window l q.data).shot c.window).crc = some (v, o) := by
        show ((u.shots)[c.window.val]).crc = _
        rw [hshots]
        exact hcrc
      obtain ⟨n, hfault, hkind, hpass⟩ := completePass_eq (crcFinish (crcBytes c.crc q.data)) hcrc'
      rw [hfirst, if_pos (by
        rw [VerifyContext.complete, Bool.and_eq_true, decide_eq_true_eq, State.shot, hshots]
        exact ⟨by rw [hlast]; rfl, hend⟩), hpass] at hgive
      have hreports := passEnded_reports (lineGiven u c.window l q.data) c.window
        (decide (crcFinish (crcBytes c.crc q.data) = v)) hfault
      have hcontexts : _ = (freeVerify (lineGiven u c.window l q.data) c.window).verify.contexts :=
        hreports.reported.field fun u => u.verify.contexts
      have hjudged : (freeVerify ((lineGiven u c.window l q.data).modShot c.window fun x =>
            passJudged x (decide (crcFinish (crcBytes c.crc q.data) = v))) c.window) =
          { u with verify := { u.verify with contexts := (passEnded (lineGiven u c.window l q.data) c.window
            (decide (crcFinish (crcBytes c.crc q.data) = v)) n).verify.contexts } }.modShot c.window fun x =>
              if crcFinish (crcBytes c.crc q.data) = v then { x with verify := .matched }
              else { x with verify := .mismatch, card := .failed } := by
        rw [hcontexts]
        by_cases hv : crcFinish (crcBytes c.crc q.data) = v
        · simp only [hv, decide_true, if_true]
          rfl
        · simp only [hv, decide_false, if_false]
          rfl
      rw [hexec, hgive]
      refine ⟨_, rfl, ?_, fun j hj => ?_, hjudged ▸ hreports, fun hm hw hwork hroom hring => ?_⟩
      · rw [hcontexts, freeVerify_get, hgiven, hfirst]
        simp [Option.filter]
      · rw [hcontexts, freeVerify_get, hkept j hj]
        cases hd : s.verify.contexts.get j with
        | none => rfl
        | some d => simp [Option.filter, (honly j d hj hd).2]
      · have hroom' : u.port.writes.length + 1 + 2 ≤ 32 := by rw [hport.2]; exact hroom
        have hring' : unconsumedCount u < 255 := by rw [unconsumedCount, hnotice]; exact hring
        obtain ⟨hnumber, hbytes⟩ := (mirror_linesIn ((lineGiven u c.window l q.data).modShot c.window fun x =>
          passJudged x (decide (crcFinish (crcBytes c.crc q.data) = v))) c.window [5]).hand_read n
          (show u.mem.wf = true by rw [hmem.1]; exact hm) (hport.1.trans hwork) hroom' hring'
        have hbyte : _ = BitVec.ofNat 8 n.kind.code := (hbytes 2 (by decide)).trans (noticeBytes_kind n _)
        refine ⟨hnumber.trans ?_, Eq.trans ?_ (hbyte.trans ?_)⟩
        · show (u.notice.number + 1) % 65536 = _
          rw [hnotice]
        · show _ = (passEnded _ _ _ n).mem.read (slotAddr u u.notice.writeIndex + 2)
          have hslot : slotAddr u u.notice.writeIndex = slotAddr s s.notice.writeIndex := by rw [slotAddr, slotAddr, hmem.2, hnotice]
          rw [hslot]
        · rw [hkind]
          split <;> rfl
  · show execReadResponseSent s = _
    rw [execReadResponseSent, hready]

/-- Settles O25. -/
theorem cardReadCounted : Obligations.CardReadCounted := by
  intro s r rest w o x htakes hspace hclass hsealed hlen hx
  have hexec := exec_cardRead htakes hspace hclass hsealed hlen
  have hrecord : cardCounted ((cardServed s r rest w o).shot w) = x := by
    rw [hx, cardServed_field fun u => u.shot w]
    rfl
  have hverifyOf : verifyOf (cardServed s r rest w o) w = verifyOf s w := cardServed_field fun u => verifyOf u w
  have hverify : (cardServed s r rest w o).verify = s.verify := cardServed_field State.verify
  have hcontext : freeContext (cardServed s r rest w o) = freeContext s := cardServed_field freeContext
  have hcrc : ((cardServed s r rest w o).shot w).crc = (s.shot w).crc := cardServed_field fun u => (u.shot w).crc
  have hseq : ((cardServed s r rest w o).shot w).seq = (s.shot w).seq := cardServed_field fun u => (u.shot w).seq
  have hcrcs : (((cardServed s r rest w o).setShot w x).shot w).crc = (s.shot w).crc := by rw [State.shot_setShot_same, hx]
  refine ⟨fun n entry hn hentry => ⟨fun hnone => ?_, fun c hc hreading => ?_⟩, fun hn => ⟨fun hnone ho => ?_,
    fun c hc hreading hnext hempty honly hopen => ?_⟩⟩
  · obtain ⟨t, htaken, ⟨hothers, hpool, hmaps⟩, hshot, hv, hpass⟩ := cardRead_mapped (r := r) (rest := rest) hn
      (cardAccepted (cardServed s r rest w o) w o).2
    have hnone' : verifyOf ((cardServed s r rest w o).setShot w x) w = none := hverifyOf.trans hnone
    rw [← hentry] at hpass
    rw [hn, show (some n).isNone = false from rfl, htaken] at hexec
    refine ⟨t, hexec, hothers, hpool, hmaps, fun ho hreading hcrc' hfree => ?_, fun ho hreading hno => ?_, fun hlater => ?_⟩
    · subst ho
      obtain ⟨i, hi⟩ := Option.isSome_iff_exists.mp hfree
      rw [cardAccepted_starts (i := i) (by rw [hrecord]; exact hreading)
        (by rw [hverifyOf]; exact hnone) (by rw [hcrc]; exact hcrc') (by rw [hcontext]; exact hi), hrecord] at hshot hv hpass
      dsimp only at hshot hv hpass
      rw [hverify] at hpass
      have hstarted := passStarted_shot ((cardServed s r rest w 0).setShot w x) w i
      rw [State.shot_setShot_same] at hstarted
      refine ⟨hshot.trans hstarted, ?_, hpass⟩
      · rw [verifyOf, hv]
        refine (verifyOf_accepting _ w 0).trans ?_
        rw [verifyOf_passStarted hnone' (hcontext.trans hi), freshContext, State.shot_setShot_same,
          show x.seq = (s.shot w).seq by rw [hx]]
        show some _ = some _
        rw [← hverify]
        rfl
    · subst ho
      rw [cardAccepted_first (by rw [hrecord]; exact hreading), hrecord,
        startPass_unverified hnone' (hno.imp (fun h => hcrcs.trans h) fun h => hcontext.trans h),
        acceptLine_none (s := setVerify ((cardServed s r rest w 0).setShot w x) w .unverified) 0 hnone'] at hshot hv hpass
      exact ⟨hshot.trans ((State.shot_modShot_same _ _ _).trans (by rw [State.shot_setShot_same])), hv.trans hverify, hpass⟩
    · rw [cardAccepted_nothing (hverifyOf.trans hnone) (by rw [hrecord]; exact hlater), hrecord] at hshot hv hpass
      exact ⟨hshot.trans (State.shot_setShot_same _ _ _), hv.trans hverify, hpass⟩
  · obtain ⟨t, htaken, ⟨hothers, hpool, hmaps⟩, hshot, hv, hpass⟩ := cardRead_mapped (r := r) (rest := rest) hn
      (cardAccepted (cardServed s r rest w o) w o).2
    have haccepted := cardAccepted_later (s := cardServed s r rest w o) (w := w) (o := o) (by rw [hrecord]; exact hreading)
      (.inr (by rw [hverifyOf, hc]; rfl))
    have hbound : verifyOf ((cardServed s r rest w o).setShot w x) w = some c := by rw [verifyOf_setShot, hverifyOf, hc]
    rw [hrecord] at haccepted
    rw [← hentry] at hpass
    rw [hn, show (some n).isNone = false from rfl, htaken] at hexec
    rw [haccepted] at hshot hv hpass
    refine ⟨t, hexec, hothers, hpool, hmaps, hshot.trans ?_, fun hnext => ?_, fun hnext => ?_⟩
    · by_cases hnext : c.next = o / 64
      · rw [acceptLine_next hbound hnext]
        exact State.shot_setShot_same _ _ _
      · rw [acceptLine_other hbound hnext]
        exact State.shot_setShot_same _ _ _
    · rw [acceptLine_next hbound hnext] at hv hpass
      refine ⟨?_, hpass⟩
      rw [verifyOf, hv]
      refine (verifyOf_accepting _ w _).trans ?_
      rw [hbound]
      rfl
    · rw [acceptLine_other hbound hnext] at hv hpass
      exact ⟨hv.trans hverify, hpass⟩
  · obtain ⟨hothers, hpool, hmaps⟩ := cardRead_frame (s := s) (r := r) (rest := rest) (w := w) (o := o)
    obtain ⟨hpass, hlink⟩ := cardRead_zeros (r := r) (rest := rest) hn
    have hreported := (cardRead_reported (s := cardServed s r rest w o) (w := w) (o := o)).1
    rw [cardAccepted_nothing (hverifyOf.trans hnone) (.inl ho), hrecord] at hexec hreported
    have hshot := hreported.field fun u => u.shot w
    exact ⟨_, hexec, hothers, hpool, hmaps, hshot.trans (State.shot_setShot_same _ _ _),
      (hreported.field State.verify).trans hverify, hpass, hlink⟩
  · obtain ⟨hothers, hpool, hmaps⟩ := cardRead_frame (s := s) (r := r) (rest := rest) (w := w) (o := o)
    obtain ⟨hpass, hlink⟩ := cardRead_zeros (r := r) (rest := rest) hn
    have hreported := (cardRead_reported (s := cardServed s r rest w o) (w := w) (o := o)).1
    have hbound : verifyOf ((cardServed s r rest w o).setShot w x) w = some c := by rw [verifyOf_setShot, hverifyOf, hc]
    rw [cardAccepted_later (by rw [hrecord]; exact hreading) (.inr (by rw [hverifyOf, hc]; rfl)), hrecord,
      acceptLine_next hbound hnext] at hexec hreported
    have hshot : (cardRead (cardServed s r rest w o) w o).1.shot w = x :=
      (hreported.field fun u => u.shot w).trans (State.shot_setShot_same _ _ _)
    have hcontexts : _ = (modVerify s w (VerifyContext.accepting (o / 64))).verify.contexts :=
      (hreported.field fun u => u.verify.contexts).trans
        (congrArg (fun v : VerifyUnit => (modVerify { s with verify := v } w (VerifyContext.accepting (o / 64))).verify.contexts) hverify)
    generalize (cardRead (cardServed s r rest w o) w o).1 = t at *
    rw [hn] at hexec
    have hend : (o / 64 + 1) * 64 ≠ (t.shot w).rawLength := by
      rw [Nat.add_mul, shot_offset_aligned hspace, hshot, hx]
      exact hopen
    obtain ⟨hgive, hfound⟩ := giveLine_zeros (t := t) hc hcontexts hempty honly hend
    exact ⟨_, hexec.trans (congrArg Host.Outcome.next hgive), hothers, hpool, hmaps, hshot, hpass, hfound, hlink⟩

end

section
/-! PROOFS. The view tap. Settles O19. -/

namespace Sys2Proof.Machine

set_option Elab.async false

/-! ### Banks -/

section
variable (s : State) (i : BankId) (k : Bank)

@[simp] theorem State.bank_setBank_same : (s.setBank i k).bank i = k := by cases i <;> rfl
@[simp] theorem State.bank_setBank_other : (s.setBank i k).bank i.other = s.bank i.other := by cases i <;> rfl
@[simp] theorem State.setBank_view : (s.setBank i k).view = s.view := by cases i <;> rfl
@[simp] theorem State.setBank_lens : (s.setBank i k).lens = s.lens := by cases i <;> rfl

/-- The state with a bank replaced differs in the banks alone. -/
theorem State.setBank_banks : ∃ a b, s.setBank i k = { s with focus := { s.focus with bankA := a, bankB := b } } := by
  cases i
  · exact ⟨k, s.focus.bankB, rfl⟩
  · exact ⟨s.focus.bankA, k, rfl⟩

end

theorem BankId.eq_or_other (i j : BankId) : j = i ∨ j = i.other := by cases i <;> cases j <;> decide

/-! ### What the view tap leaves unchanged -/

/-- The records, maps, pool, zones and last grid line that the view tap never touches, and what the arbiter's choice depends on
besides the lens controller. -/
structure ViewFrame (s t : State) : Prop where
  shots : t.shots = s.shots
  maps : t.maps = s.maps
  pool : t.pool = s.pool
  zones : t.focus.zones = s.focus.zones
  last : t.view.lastGridLine = s.view.lastGridLine
  setup : t.focus.setup = s.focus.setup
  now : t.now = s.now

theorem ViewFrame.refl (s : State) : ViewFrame s s := ⟨rfl, rfl, rfl, rfl, rfl, rfl, rfl⟩

theorem ViewFrame.trans {s t u : State} (h : ViewFrame s t) (k : ViewFrame t u) : ViewFrame s u :=
  ⟨k.shots.trans h.shots, k.maps.trans h.maps, k.pool.trans h.pool, k.zones.trans h.zones, k.last.trans h.last, k.setup.trans h.setup,
    k.now.trans h.now⟩

theorem Reported.viewFrame {s t : State} (h : Reported s t) : ViewFrame s t :=
  ⟨h.field State.shots, h.field State.maps, h.field State.pool, h.field fun u => u.focus.zones, h.field fun u => u.view.lastGridLine,
    h.field fun u => u.focus.setup, h.field State.now⟩

theorem setBank_viewFrame (s : State) (i : BankId) (k : Bank) : ViewFrame s (s.setBank i k) := by
  obtain ⟨a, b, e⟩ := s.setBank_banks i k
  rw [e]
  exact ⟨rfl, rfl, rfl, rfl, rfl, rfl, rfl⟩

/-- The arbiter's choice depends on the lens controller, the time and the shots alone. -/
theorem arbitrate_congr {s t : State} (hlens : t.lens = s.lens) (hnow : t.now = s.now) (hshots : t.shots = s.shots) :
    (arbitrate t).lens = (arbitrate s).lens := by
  have hcount : capturingCount t = capturingCount s := by rw [capturingCount, capturingCount, hshots]
  have hdrive : driveMayBegin t = driveMayBegin s := by rw [driveMayBegin, driveMayBegin, hlens, hcount]
  have hbegin (r : LensRequest) (l : Lens) :
      (beginExchange { t with lens := l } r).lens = (beginExchange { s with lens := l } r).lens := by
    rw [beginExchange, beginExchange, hnow]
  have hmessage : (beginMessage t).lens = (beginMessage s).lens := by
    rw [beginMessage, beginMessage, hlens]
    cases s.lens.messages with
    | nil => exact hlens
    | cons m more => exact hbegin _ _
  have htarget : (beginDrive t).lens = (beginDrive s).lens := by
    have hdistance (n : Nat) : driveDistance t n = driveDistance s n := by rw [driveDistance, driveDistance, hlens]
    rw [beginDrive, beginDrive, hlens]
    cases s.lens.drive with
    | none => exact hlens
    | some n =>
      show (beginExchange _ (.drive n (speedClass (driveDistance t n)))).lens = _
      rw [hdistance]
      exact hbegin _ _
  have hite {c : Prop} [Decidable c] {a a' b b' : State} (ha : a'.lens = a.lens) (hb : b'.lens = b.lens) :
      (if c then a' else b').lens = (if c then a else b).lens := by
    split
    · exact ha
    · exact hb
  unfold arbitrate
  rw [hlens, hdrive]
  refine hite hlens ?_
  cases s.lens.state with
  | absent => exact hlens
  | identifying => exact hite (hbegin _ _) hlens
  | unresponsive => exact hite (hbegin _ _) hlens
  | ready =>
    exact hite (hbegin _ _) (hite (hite htarget hmessage) (hite hmessage (hite htarget (hite (hbegin _ _) hlens))))

/-! ### The lens at view events (R108) -/

/-- R108: the lens controller after a view event. -/
def statusAsked (s : State) : Lens :=
  if s.lens.state = .ready then (arbitrate { s with lens := { s.lens with statusPending := true } }).lens else s.lens

theorem requestStatus_eq (s : State) : requestStatus s = { s with lens := statusAsked s } := by
  unfold requestStatus statusAsked
  split
  · exact arbitrate_lens _
  · rfl

theorem statusAsked_congr {s t : State} (hlens : t.lens = s.lens) (hnow : t.now = s.now) (hshots : t.shots = s.shots) :
    statusAsked t = statusAsked s := by
  unfold statusAsked
  rw [hlens]
  split
  · exact arbitrate_congr rfl hnow hshots
  · rfl

theorem requestStatus_viewFrame (s : State) : ViewFrame s (requestStatus s) := by
  rw [requestStatus_eq]
  exact ⟨rfl, rfl, rfl, rfl, rfl, rfl, rfl⟩

/-! ### Dropping a view (R70, R71) -/

theorem dropView_some {s : State} {v : Followed} (h : s.view.followed = some v) :
    dropView s = raiseSkipped { s.setBank v.bank idleBank with view := { s.view with followed := none } } 1 := by
  rw [dropView, h]

theorem dropView_none {s : State} (h : s.view.followed = none) : dropView s = s := by rw [dropView, h]

theorem dropView_bank (s : State) (i : BankId) :
    (dropView s).bank i = if s.view.followed.map Followed.bank = some i then idleBank else s.bank i := by
  cases h : s.view.followed with
  | none => rw [dropView_none h]; rfl
  | some v =>
    have hdropped : (dropView s).bank i = (s.setBank v.bank idleBank).bank i := by
      rw [dropView_some h]
      cases i <;> rfl
    rw [hdropped]
    rcases BankId.eq_or_other v.bank i with rfl | rfl
    · simp
    · rw [State.bank_setBank_other, if_neg]
      cases h : v.bank <;> simp [h, BankId.other]

theorem dropView_view (s : State) : (dropView s).view = { s.view with
    followed := none
    skipped := if s.view.followed.isSome then (s.view.skipped + 1) % 2 ^ 32 else s.view.skipped } := by
  cases h : s.view.followed with
  | none =>
    show (dropView s).view = { s.view with followed := none }
    rw [dropView_none h, ← h]
  | some v =>
    rw [dropView_some h]
    rfl

theorem dropView_viewFrame (s : State) : ViewFrame s (dropView s) := by
  obtain ⟨a, b, n, e⟩ := dropView_eq s
  rw [e]
  exact ⟨rfl, rfl, rfl, rfl, rfl, rfl, rfl⟩

theorem dropView_lens (s : State) : (dropView s).lens = s.lens := by
  obtain ⟨a, b, n, e⟩ := dropView_eq s
  rw [e]
  rfl

/-! ### A line of the followed view (R71, R72) -/

/-- R71: the bank with line l taken in. -/
def lineAdded (s : State) (f : FocusSetup) (v : Followed) (l : Nat) (data : List Byte) : Bank :=
  { s.bank v.bank with sums := if gridLine f l then addViewLine f l data (s.bank v.bank).sums else (s.bank v.bank).sums }

theorem lineAdded_eq (s : State) (f : FocusSetup) (v : Followed) (l : Nat) (data : List Byte) :
    (if gridLine f l then { s.bank v.bank with sums := addViewLine f l data (s.bank v.bank).sums } else s.bank v.bank) =
      lineAdded s f v l data := by
  unfold lineAdded
  split <;> rfl

theorem viewLine_next {s : State} (f : FocusSetup) (v : Followed) {l : Nat} (data : List Byte) (h : l ≠ s.view.lastGridLine) :
    viewLine s f v l data =
      { s with view := { s.view with followed := some { v with next := l + 1 } } }.setBank v.bank (lineAdded s f v l data) := by
  rw [viewLine, lineAdded_eq]
  exact if_neg h

theorem viewLine_last {s : State} (f : FocusSetup) (v : Followed) {l : Nat} (data : List Byte) (h : l = s.view.lastGridLine) :
    viewLine s f v l data = requestStatus (handOver ({ s with view := { s.view with followed := none } }.setBank v.bank
      { lineAdded s f v l data with atLast := reportedPosition s }) v.bank) := by
  rw [viewLine, lineAdded_eq]
  exact if_pos h

/-- R72, R73: where the other bank is MEASURING the bank is FULL, and otherwise it is measured at once. -/
def handedOver (s : State) (i : BankId) : Bank :=
  if (s.bank i.other).state = .measuring then { s.bank i with state := .full }
  else { s.bank i with state := .measuring, setup := s.focus.setup, gridChanged := false }

theorem handOver_eq (s : State) (i : BankId) : handOver s i = s.setBank i (handedOver s i) := by
  unfold handOver handedOver
  split <;> rfl

/-! ### A write to a declared buffer -/

/-- R69: a CAPTURE write to a line of a declared buffer is stored and reaches the view tap. -/
theorem exec_viewWrite {s : State} {r : Request} {rest : List Request} {data : List Byte} {mask : BitVec 64} {f : FocusSetup} {i l : Nat}
    (h : TakesWrite s r rest data mask) (hplain : classify (lineAddr r) = .plain) (hcheck : plainCheck s (lineAddr r) = none)
    (hclass : sourceClass r.tag = .capture) (hsetup : s.focus.setup = some f) (hline : viewLineOf f (lineAddr r) = some (i, l)) :
    exec .takeWrite s =
      .next (viewReceive (wordStored s rest (lineAddr r) data mask) f i l (mask == fullMask) data) := by
  refine exec_takeWrite_some h ((writeTaken_plain (s := freeWriteSlot s rest) _ data mask hplain hcheck).trans ?_)
  rw [hclass]
  show some (viewWrite (wordStored s rest (lineAddr r) data mask) (lineAddr r) (mask == fullMask) data) = _
  rw [viewWrite, show (wordStored s rest (lineAddr r) data mask).focus.setup = some f from hsetup]
  simp only [hline]

theorem wordStored_viewFrame (s : State) (rest : List Request) (a : Nat) (data : List Byte) (mask : BitVec 64) :
    ViewFrame s (wordStored s rest a data mask) := ⟨rfl, rfl, rfl, rfl, rfl, rfl, rfl⟩

theorem viewReceive_start (s : State) (f : FocusSetup) (i : Nat) (data : List Byte) :
    viewReceive s f i 0 true data = viewStart s f i data := rfl

theorem viewReceive_none {s : State} (f : FocusSetup) {i l : Nat} {full : Bool} (data : List Byte) (hstart : ¬(full = true ∧ l = 0))
    (h : ∀ v, s.view.followed = some v → v.buffer ≠ i) : viewReceive s f i l full data = s := by
  unfold viewReceive
  rw [if_neg (by simpa using hstart)]
  cases hv : s.view.followed with
  | none => rfl
  | some v => exact if_pos (h v hv)

theorem viewReceive_followed {s : State} (f : FocusSetup) {v : Followed} {l : Nat} {full : Bool} (data : List Byte)
    (hstart : ¬(full = true ∧ l = 0)) (h : s.view.followed = some v) :
    viewReceive s f v.buffer l full data =
      if full && decide (l = v.next) then viewLine s f v l data else publish (dropView s) 8 := by
  unfold viewReceive
  rw [if_neg (by simpa using hstart), h]
  exact if_neg (fun h => h rfl)

/-! ### A view start (R70) -/

/-- R70 steps 1 and 2. -/
def startCounted (s : State) : State :=
  { dropView s with view := { (dropView s).view with sequence := wrap32 ((dropView s).view.sequence + 1) } }

/-- R70 step 3, R74: the bank that takes the new view. -/
def startedBank (s : State) : Bank :=
  { idleBank with state := .accumulating, view := (startCounted s).view.sequence, atStart := reportedPosition s }

theorem startCounted_bank (s : State) (i : BankId) :
    (startCounted s).bank i = if s.view.followed.map Followed.bank = some i then idleBank else s.bank i := by
  rw [← dropView_bank]
  cases i <;> rfl

theorem startCounted_free (s : State) (i : BankId) : ((startCounted s).bank i).state = .idle ↔ bankComesFree s i := by
  rw [startCounted_bank, bankComesFree]
  split
  · next h => simp [h, idleBank]
  · next h => simp [h]

theorem idleBankOf_eq (s : State) : idleBankOf s =
    if (s.bank .a).state = .idle then some .a else if (s.bank .b).state = .idle then some .b else none := rfl

theorem viewStart_none {s : State} (f : FocusSetup) (i : Nat) (data : List Byte) (ha : ¬bankComesFree s .a) (hb : ¬bankComesFree s .b) :
    viewStart s f i data = publish (raiseSkipped (startCounted s) 1) 8 := by
  have hnone : idleBankOf (startCounted s) = none := by
    rw [idleBankOf_eq, if_neg (mt (startCounted_free s .a).mp ha), if_neg (mt (startCounted_free s .b).mp hb)]
  rw [startCounted] at hnone
  rw [viewStart]
  simp only [hnone]
  rfl

theorem viewStart_some {s : State} (f : FocusSetup) (i : Nat) (data : List Byte) {k : BankId}
    (h : (k = .a ∧ bankComesFree s .a) ∨ (k = .b ∧ ¬bankComesFree s .a ∧ bankComesFree s .b)) :
    viewStart s f i data = viewLine (requestStatus (publish ((startCounted s).setBank k (startedBank s)) 8)) f
      { buffer := i, next := 0, bank := k } 0 data := by
  have hsome : idleBankOf (startCounted s) = some k := by
    rcases h with ⟨rfl, ha⟩ | ⟨rfl, ha, hb⟩
    · rw [idleBankOf_eq, if_pos ((startCounted_free s .a).mpr ha)]
    · rw [idleBankOf_eq, if_neg (mt (startCounted_free s .a).mp ha), if_pos ((startCounted_free s .b).mpr hb)]
  have hlens : reportedPosition (startCounted s) = reportedPosition s := by
    rw [reportedPosition, reportedPosition]
    exact congrArg (fun l : Lens => l.report.map PositionReport.position) (dropView_lens s)
  rw [startedBank, ← hlens]
  rw [startCounted] at hsome
  rw [viewStart]
  simp only [hsome]
  rfl

theorem startCounted_viewFrame (s : State) : ViewFrame s (startCounted s) := by
  obtain ⟨h1, h2, h3, h4, h5, h6, h7⟩ := dropView_viewFrame s
  exact ⟨h1, h2, h3, h4, h5, h6, h7⟩

theorem startCounted_view (s : State) : (startCounted s).view = { s.view with
    followed := none
    sequence := (s.view.sequence + 1) % 2 ^ 32
    skipped := if s.view.followed.isSome then (s.view.skipped + 1) % 2 ^ 32 else s.view.skipped } := by
  rw [startCounted, dropView_view]
  rfl

/-- R70 step 3, R108: the new view is published, and the lens asked for its STATUS. -/
def startShown (s : State) (k : BankId) : State := requestStatus (publish ((startCounted s).setBank k (startedBank s)) 8)

theorem startShown_viewFrame (s : State) (k : BankId) : ViewFrame s (startShown s k) :=
  (((startCounted_viewFrame s).trans (setBank_viewFrame _ k _)).trans (publish_reported _ 8).viewFrame).trans (requestStatus_viewFrame _)

theorem startShown_view (s : State) (k : BankId) : (startShown s k).view = (startCounted s).view := by
  rw [startShown, requestStatus_eq]
  exact ((publish_reported _ 8).field State.view).trans (State.setBank_view _ _ _)

theorem startShown_bank (s : State) (k i : BankId) :
    (startShown s k).bank i = ((startCounted s).setBank k (startedBank s)).bank i := by
  rw [startShown, requestStatus_eq]
  exact (publish_reported ((startCounted s).setBank k (startedBank s)) 8).field fun u => u.bank i

theorem startShown_lens (s : State) (k : BankId) : (startShown s k).lens = statusAsked s := by
  have hframe := ((startCounted_viewFrame s).trans (setBank_viewFrame _ k (startedBank s))).trans (publish_reported _ 8).viewFrame
  rw [startShown, requestStatus_eq]
  refine statusAsked_congr ?_ hframe.now hframe.shots
  refine ((publish_reported _ 8).field State.lens).trans ((State.setBank_lens _ _ _).trans ?_)
  exact dropView_lens s

/-! ### Whatever the write does -/

theorem viewLine_viewFrame (s : State) (f : FocusSetup) (v : Followed) (l : Nat) (data : List Byte) :
    ViewFrame s (viewLine s f v l data) := by
  have hfollowed (o : Option Followed) : ViewFrame s { s with view := { s.view with followed := o } } :=
    ⟨rfl, rfl, rfl, rfl, rfl, rfl, rfl⟩
  by_cases hl : l = s.view.lastGridLine
  · rw [viewLine_last f v data hl, handOver_eq]
    exact (((hfollowed none).trans (setBank_viewFrame _ _ _)).trans (setBank_viewFrame _ _ _)).trans (requestStatus_viewFrame _)
  · rw [viewLine_next f v data hl]
    exact (hfollowed _).trans (setBank_viewFrame _ _ _)

theorem viewStart_viewFrame (s : State) (f : FocusSetup) (i : Nat) (data : List Byte) : ViewFrame s (viewStart s f i data) := by
  by_cases ha : bankComesFree s .a
  · rw [viewStart_some f i data (.inl ⟨rfl, ha⟩)]
    exact (startShown_viewFrame s .a).trans (viewLine_viewFrame _ _ _ _ _)
  by_cases hb : bankComesFree s .b
  · rw [viewStart_some f i data (.inr ⟨rfl, ha, hb⟩)]
    exact (startShown_viewFrame s .b).trans (viewLine_viewFrame _ _ _ _ _)
  · rw [viewStart_none f i data ha hb]
    have hskipped : ViewFrame (startCounted s) (raiseSkipped (startCounted s) 1) := ⟨rfl, rfl, rfl, rfl, rfl, rfl, rfl⟩
    exact ((startCounted_viewFrame s).trans hskipped).trans (publish_reported _ 8).viewFrame

theorem viewReceive_viewFrame (s : State) (f : FocusSetup) (i l : Nat) (full : Bool) (data : List Byte) :
    ViewFrame s (viewReceive s f i l full data) := by
  unfold viewReceive
  split
  · exact viewStart_viewFrame s f i data
  · split
    · exact .refl s
    · split
      · exact .refl s
      · split
        · exact viewLine_viewFrame s f _ l data
        · exact (dropView_viewFrame s).trans (publish_reported _ 8).viewFrame

section
variable {s : State} (f : FocusSetup) (data : List Byte)

/-- R70: a view start that a bank takes. -/
theorem viewStart_followed (i : Nat) {k : BankId}
    (h : (k = .a ∧ bankComesFree s .a) ∨ (k = .b ∧ ¬bankComesFree s .a ∧ bankComesFree s .b)) (hlast : s.view.lastGridLine ≠ 0) :
    (viewStart s f i data).view = { (startCounted s).view with followed := some { buffer := i, next := 1, bank := k } } ∧
      (viewStart s f i data).lens = statusAsked s ∧
      (viewStart s f i data).bank k = { startedBank s with
        sums := if gridLine f 0 then addViewLine f 0 data idleBank.sums else idleBank.sums } ∧
      (viewStart s f i data).bank k.other =
        if s.view.followed.map Followed.bank = some k.other then idleBank else s.bank k.other := by
  have hnext : 0 ≠ (startShown s k).view.lastGridLine := by
    rw [startShown_view, startCounted_view]
    exact hlast.symm
  have hview := startShown_view s k
  have hlens := startShown_lens s k
  have hbank := startShown_bank s k k
  have hother := startShown_bank s k k.other
  rw [State.bank_setBank_same] at hbank
  rw [State.bank_setBank_other, startCounted_bank] at hother
  rw [viewStart_some f i data h]
  show (viewLine (startShown s k) f _ 0 data).view = _ ∧ (viewLine (startShown s k) f _ 0 data).lens = _ ∧
    (viewLine (startShown s k) f _ 0 data).bank k = _ ∧ (viewLine (startShown s k) f _ 0 data).bank k.other = _
  generalize startShown s k = t at *
  rw [viewLine_next f _ data hnext]
  refine ⟨(State.setBank_view _ _ _).trans (by rw [hview]), (State.setBank_lens _ _ _).trans hlens,
    (State.bank_setBank_same _ _ _).trans (by rw [lineAdded, hbank]; rfl), (State.bank_setBank_other _ _ _).trans (Eq.trans ?_ hother)⟩
  cases k <;> rfl

/-- R70: a view start that finds no bank. -/
theorem viewStart_skipped (i : Nat) (ha : ¬bankComesFree s .a) (hb : ¬bankComesFree s .b) :
    (viewStart s f i data).view = { s.view with
        sequence := (s.view.sequence + 1) % 2 ^ 32, skipped := (s.view.skipped + 1) % 2 ^ 32 } ∧
      (viewStart s f i data).focus = s.focus ∧ (viewStart s f i data).lens = s.lens := by
  have hnone : s.view.followed = none := by
    cases h : s.view.followed with
    | none => rfl
    | some v =>
      have hfrees : bankComesFree s v.bank := .inr (by rw [h]; rfl)
      cases hv : v.bank
      · exact absurd (hv ▸ hfrees) ha
      · exact absurd (hv ▸ hfrees) hb
  have hreported := publish_reported (raiseSkipped (startCounted s) 1) 8
  rw [viewStart_none f i data ha hb]
  refine ⟨(hreported.field State.view).trans ?_, (hreported.field State.focus).trans ?_, (hreported.field State.lens).trans ?_⟩
  · have hview : (raiseSkipped (startCounted s) 1).view =
        { (startCounted s).view with skipped := wrap32 ((startCounted s).view.skipped + 1) } := rfl
    rw [hview, startCounted_view, hnone]
    exact congrArg (fun o => ({ s.view with
      followed := o, sequence := (s.view.sequence + 1) % 2 ^ 32, skipped := (s.view.skipped + 1) % 2 ^ 32 } : ViewTap)) hnone.symm
  · show (dropView s).focus = _
    rw [dropView_none hnone]
  · exact dropView_lens s

/-- R71: the next line of the followed view, not its last grid line. -/
theorem viewLine_taken (v : Followed) {l : Nat} (h : l ≠ s.view.lastGridLine) :
    (viewLine s f v l data).view = { s.view with followed := some { v with next := l + 1 } } ∧
      (viewLine s f v l data).lens = s.lens ∧ (viewLine s f v l data).bank v.bank = lineAdded s f v l data ∧
      (viewLine s f v l data).bank v.bank.other = s.bank v.bank.other := by
  rw [viewLine_next f v data h]
  refine ⟨State.setBank_view _ _ _, State.setBank_lens _ _ _, State.bank_setBank_same _ _ _,
    (State.bank_setBank_other _ _ _).trans ?_⟩
  cases v.bank <;> rfl

/-- R72, R73: the last grid line hands the bank over. -/
theorem viewLine_ended (v : Followed) {l : Nat} (h : l = s.view.lastGridLine) :
    (viewLine s f v l data).view = { s.view with followed := none } ∧ (viewLine s f v l data).lens = statusAsked s ∧
      (viewLine s f v l data).bank v.bank.other = s.bank v.bank.other ∧
      ((s.bank v.bank.other).state = .measuring → (viewLine s f v l data).bank v.bank =
        { lineAdded s f v l data with atLast := reportedPosition s, state := .full }) ∧
      ((s.bank v.bank.other).state ≠ .measuring → (viewLine s f v l data).bank v.bank =
        { lineAdded s f v l data with
          atLast := reportedPosition s, state := .measuring, setup := s.focus.setup, gridChanged := false }) := by
  have hother (k : Bank) : ({ s with view := { s.view with followed := none } }.setBank v.bank k).bank v.bank.other =
      s.bank v.bank.other := by
    rw [State.bank_setBank_other]
    cases v.bank <;> rfl
  have hframe (k : Bank) : ViewFrame s ({ s with view := { s.view with followed := none } }.setBank v.bank k) :=
    ViewFrame.trans (t := { s with view := { s.view with followed := none } }) ⟨rfl, rfl, rfl, rfl, rfl, rfl, rfl⟩ (setBank_viewFrame _ _ _)
  rw [viewLine_last f v data h, handOver_eq, requestStatus_eq]
  generalize hk : ({ lineAdded s f v l data with atLast := reportedPosition s } : Bank) = k
  specialize hother k
  specialize hframe k
  have hbank : ({ s with view := { s.view with followed := none } }.setBank v.bank k).bank v.bank = k := State.bank_setBank_same _ _ _
  have hview : ({ s with view := { s.view with followed := none } }.setBank v.bank k).view = { s.view with followed := none } :=
    State.setBank_view _ _ _
  have hlens : ({ s with view := { s.view with followed := none } }.setBank v.bank k).lens = s.lens := State.setBank_lens _ _ _
  generalize { s with view := { s.view with followed := none } }.setBank v.bank k = t at *
  have hsame (i : BankId) (x : Bank) (l : Lens) : ({ t.setBank v.bank x with lens := l } : State).bank i = (t.setBank v.bank x).bank i := by
    cases i <;> rfl
  have hframe' := hframe.trans (setBank_viewFrame t v.bank (handedOver t v.bank))
  refine ⟨(State.setBank_view _ _ _).trans hview, statusAsked_congr ((State.setBank_lens _ _ _).trans hlens) hframe'.now hframe'.shots,
    (hsame _ _ _).trans ((State.bank_setBank_other _ _ _).trans hother), fun hm => (hsame _ _ _).trans ?_,
    fun hm => (hsame _ _ _).trans ?_⟩
  · rw [State.bank_setBank_same, handedOver, hother, if_pos hm, hbank, ← hk]
  · rw [State.bank_setBank_same, handedOver, hother, if_neg hm, hbank, ← hk, hframe.setup]

/-- R71: a write out of order drops the followed view. -/
theorem viewDropped {v : Followed} (h : s.view.followed = some v) :
    (publish (dropView s) 8).view = { s.view with followed := none, skipped := (s.view.skipped + 1) % 2 ^ 32 } ∧
      (publish (dropView s) 8).lens = s.lens ∧ (publish (dropView s) 8).bank v.bank = idleBank ∧
      (publish (dropView s) 8).bank v.bank.other = s.bank v.bank.other := by
  have hreported := publish_reported (dropView s) 8
  refine ⟨(hreported.field State.view).trans ?_, (hreported.field State.lens).trans (dropView_lens s),
    (hreported.field fun u => u.bank v.bank).trans ?_, (hreported.field fun u => u.bank v.bank.other).trans ?_⟩
  · rw [dropView_view, h]
    rfl
  · rw [dropView_bank, h]
    exact if_pos rfl
  · rw [dropView_bank, h, if_neg]
    cases hv : v.bank <;> simp [hv, BankId.other]

end

end Sys2Proof.Machine

open Sys2Proof Sys2Proof.Machine

/-- Settles O19. -/
theorem viewStartFollowsInBankA : Obligations.ViewStartFollowsInBankA := by
  intro s r rest data mask f i l htakes hplain hcheck hclass hsetup hline
  rw [exec_viewWrite htakes hplain hcheck hclass hsetup hline]
  have hframe := wordStored_viewFrame s rest (lineAddr r) data mask
  have hview : (wordStored s rest (lineAddr r) data mask).view = s.view := rfl
  have hlens : (wordStored s rest (lineAddr r) data mask).lens = s.lens := rfl
  have hfocus : (wordStored s rest (lineAddr r) data mask).focus = s.focus := rfl
  generalize wordStored s rest (lineAddr r) data mask = u at *
  have hfull : (mask == fullMask) = true ↔ mask = fullMask := beq_iff_eq
  have hbank (k : BankId) : u.bank k = s.bank k := by cases k <;> simp only [State.bank, hfocus]
  have hfree (k : BankId) : bankComesFree u k ↔ bankComesFree s k := by rw [bankComesFree, bankComesFree, hbank, hview]
  have hstatus : statusAsked u = statusAsked s := statusAsked_congr hlens hframe.now hframe.shots
  by_cases hstart : mask = fullMask ∧ l = 0
  · obtain ⟨hmask, rfl⟩ := hstart
    obtain ⟨hshots, hmaps, hpool, hzones, hlast, -, -⟩ := hframe.trans (viewReceive_viewFrame u f i 0 (mask == fullMask) data)
    refine ⟨_, rfl, hshots, hmaps, hpool, hzones, hlast, fun _ _ hlast => ⟨fun k hk => ?_, fun ha hb => ?_⟩,
      fun h => absurd ⟨hmask, rfl⟩ h⟩
    · rw [hfull.mpr hmask, viewReceive_start]
      obtain ⟨hv, hl, hk', ho⟩ := viewStart_followed f data i (by rw [hfree, hfree]; exact hk) (by rw [hview]; exact hlast)
      rw [startCounted_view, hview] at hv
      rw [startedBank, startCounted_view, hview, reportedPosition, hlens] at hk'
      rw [hview, hbank] at ho
      rw [hv, hl, hk', ho, hstatus]
      exact ⟨rfl, rfl, rfl, rfl, rfl, rfl⟩
    · rw [hfull.mpr hmask, viewReceive_start]
      obtain ⟨hv, hf, hl⟩ := viewStart_skipped f data i (by rw [hfree]; exact ha) (by rw [hfree]; exact hb)
      rw [hview] at hv
      exact ⟨hv, hf.trans hfocus, hl.trans hlens⟩
  · have hstart' : ¬((mask == fullMask) = true ∧ l = 0) := by rwa [hfull]
    obtain ⟨hshots, hmaps, hpool, hzones, hlast, -, -⟩ := hframe.trans (viewReceive_viewFrame u f i l (mask == fullMask) data)
    refine ⟨_, rfl, hshots, hmaps, hpool, hzones, hlast, fun h1 h2 => absurd ⟨h1, h2⟩ hstart, fun _ => ⟨fun v hv hbuffer => ?_,
      fun hnot => ?_⟩⟩
    · subst hbuffer
      rw [viewReceive_followed f data hstart' (by rw [hview]; exact hv)]
      by_cases hnext : mask = fullMask ∧ l = v.next
      · have hnext' : ((mask == fullMask) && decide (l = v.next)) = true := by simpa using hnext
        rw [if_pos hnext']
        by_cases hend : l = s.view.lastGridLine
        · obtain ⟨h1, h2, h3, h4, h5⟩ := viewLine_ended (s := u) f data v (l := l) (by rw [hview]; exact hend)
          rw [hview] at h1
          rw [h1, h2, h3, hstatus, hbank]
          rw [hbank] at h4 h5
          refine ⟨rfl, rfl, fun _ _ h => absurd hend h, fun _ _ _ => ⟨rfl, rfl, fun hm => ?_, fun hm => ?_⟩, fun h => absurd hnext h⟩
          · rw [h4 hm, lineAdded, hbank, reportedPosition, hlens]
          · rw [h5 hm, lineAdded, hbank, reportedPosition, hlens, hfocus, hsetup]
        · obtain ⟨h1, h2, h3, h4⟩ := viewLine_taken (s := u) f data v (l := l) (by rw [hview]; exact hend)
          rw [hview] at h1
          rw [h1, h2, h3, h4, hlens, hbank, lineAdded, hbank]
          exact ⟨rfl, rfl, fun _ _ _ => ⟨rfl, rfl, rfl⟩, fun _ _ h => absurd h hend, fun h => absurd hnext h⟩
      · have hnext' : ¬((mask == fullMask) && decide (l = v.next)) = true := by simpa using hnext
        rw [if_neg hnext']
        obtain ⟨h1, h2, h3, h4⟩ := viewDropped (s := u) (v := v) (by rw [hview]; exact hv)
        rw [h1, h2, h3, h4, hview, hlens, hbank]
        exact ⟨rfl, rfl, fun h1 h2 => absurd ⟨h1, h2⟩ hnext, fun h1 h2 => absurd ⟨h1, h2⟩ hnext, fun _ => ⟨rfl, rfl, rfl⟩⟩
    · rw [viewReceive_none f data hstart' (by rw [hview]; exact hnot)]
      exact ⟨hview, hfocus, hlens⟩

end

section
/-! PROOFS. Several notices in a row, and the completion of a measurement. Settles O45. -/

namespace Sys2Proof.Machine

set_option Elab.async false

/-! ### Several notices in a row (R171) -/

theorem slotAfter_eq {k : Nat} (h : k < 256) (i : Nat) : slotAfter k i = (k + i) % 256 := by
  induction i with
  | zero => exact (Nat.mod_eq_of_lt h).symm
  | succ i ih =>
    rw [slotAfter, ih]
    omega

theorem slotAfter_succ (k i : Nat) : slotAfter ((k + 1) % 256) i = slotAfter k (i + 1) := by
  induction i with
  | zero => rfl
  | succ i ih =>
    rw [slotAfter, ih]
    rfl

theorem numberAfter_succ (n i : Nat) : numberAfter ((n + 1) % 65536) i = numberAfter n (i + 1) := by
  induction i with
  | zero => rfl
  | succ i ih =>
    rw [numberAfter, ih]
    rfl

/-- R171: a notice handed over with places free. -/
structure HandedRoom (n : Notice) (s t : State) : Prop where
  caSel : t.caSel = s.caSel
  canonical : MemoryCanonical t
  work : t.port.work = []
  writes : t.port.writes.length = s.port.writes.length + 2
  writeIndex : t.notice.writeIndex = (s.notice.writeIndex + 1) % 256
  consumed : t.notice.consumedIndex = s.notice.consumedIndex
  number : t.notice.number = (s.notice.number + 1) % 65536
  record : ∀ j, j < 32 → t.mem.read (slotAddr s s.notice.writeIndex + j) = (noticeBytes n s.notice.number).getD j 0

theorem hand_handedRoom {s : State} (n : Notice) (hm : MemoryCanonical s) (hwork : s.port.work = [])
    (hroom : s.port.writes.length + 2 ≤ 32) (hring : unconsumedCount s < 255) : HandedRoom n s (hand s n) := by
  have hread := fun j (hj : j < 32) => hand_room_read n hm hwork hroom hring (i := j) hj
  have hmem := (hand_keeps (b := false) s n).mem hm
  rw [hand_room n hwork hroom hring] at hread hmem ⊢
  obtain ⟨c, l, p, e⟩ := evaluateAttention_cases (noticeEntered s n)
  rw [e] at hread hmem ⊢
  refine ⟨rfl, hmem, rfl, ?_, rfl, rfl, rfl, hread⟩
  show ((s.port.writes ++ [_]) ++ [_]).length = _
  simp

theorem hands_reports (s : State) {ns : List Notice} (h : ∀ n ∈ ns, n.fault = none) :
    OnlyReports [.cursor 3] ns.length s (ns.foldl hand s) := by
  induction ns generalizing s with
  | nil => exact (OnlyReports.refl s).mono (List.nil_subset _) (le_refl 0)
  | cons n ns ih =>
    have hrest := ih (hand s n) fun m hm => h m (List.mem_cons_of_mem _ hm)
    exact ((hand_reports s n (h n List.mem_cons_self)).trans hrest).mono (by simp) (by simp [Nat.add_comm])

/-- Two slots of the notice ring share no byte. -/
theorem slots_outside (s : State) {k k' j : Nat} (h : k ≠ k') (hj : j < 32) : Outside (slotAddr s k') 32 (slotAddr s k + j) := by
  simp only [Outside, slotAddr]
  omega

/-- R171: with places free, the i-th of several notices stands i slots behind the write index with a number i numbers behind. -/
theorem hands_recorded {s : State} {ns : List Notice} (hfault : ∀ n ∈ ns, n.fault = none) (hm : MemoryCanonical s)
    (hwrite : s.notice.writeIndex < 256) (hconsumed : s.notice.consumedIndex < 256) (hwork : s.port.work = [])
    (hroom : s.port.writes.length + 2 * ns.length ≤ 32) (hring : unconsumedCount s + ns.length ≤ 255) :
    (ns.foldl hand s).notice.number = numberAfter s.notice.number ns.length ∧
      ∀ i n j, ns[i]? = some n → j < 32 →
        (ns.foldl hand s).mem.read (slotAddr s (slotAfter s.notice.writeIndex i) + j) =
          (noticeBytes n (numberAfter s.notice.number i)).getD j 0 := by
  induction ns generalizing s with
  | nil => exact ⟨rfl, nofun⟩
  | cons n ns ih =>
    rw [List.length_cons] at hroom hring
    have hhanded := hand_handedRoom n hm hwork (by omega) (by omega)
    have hfault' : ∀ m ∈ ns, m.fault = none := fun m hm => hfault m (List.mem_cons_of_mem _ hm)
    have hrest := hands_reports (hand s n) hfault'
    obtain ⟨hcaSel, hcanonical, hwork', hwrites, hindex, hconsumed', hnumber, hrecord⟩ := hhanded
    have hslot (k : Nat) : slotAddr (hand s n) k = slotAddr s k := by rw [slotAddr, slotAddr, hcaSel]
    have hcount : unconsumedCount (hand s n) = unconsumedCount s + 1 := by
      simp only [unconsumedCount] at hring ⊢
      rw [hindex, hconsumed']
      omega
    obtain ⟨hlast, hothers⟩ := ih hfault' hcanonical (by rw [hindex]; exact Nat.mod_lt _ (by decide)) (by rw [hconsumed']; exact hconsumed)
      hwork' (by rw [hwrites]; omega) (by rw [hcount]; omega)
    rw [hindex, hnumber] at hothers
    rw [hnumber, numberAfter_succ] at hlast
    refine ⟨hlast, fun i m j hi hj => ?_⟩
    cases i with
    | zero =>
      obtain rfl : n = m := Option.some.inj hi
      refine Eq.trans (hrest.mem _ (fun l hl => ?_) fun i hi => ?_) (hrecord j hj)
      · rw [List.mem_singleton.mp hl, slotAfter, ← hslot]
        exact cursor_outside_ring _ 3 _ _
      · rw [hslot, hindex, slotAfter_succ, slotAfter_eq hwrite]
        refine slots_outside s ?_ hj
        rw [slotAfter]
        omega
    | succ i =>
      have hread := hothers i m j hi hj
      rw [hslot, slotAfter_succ, numberAfter_succ] at hread
      exact hread

/-! ### Settling a measurement -/

section
variable (s : State) (f : FocusSetup) (k : Bank)

/-- R90: the zones whose change of state is reported. -/
def zonesChanged : List (Fin 63) :=
  (List.finRange 63).filter fun z => decide (z.val < f.grid.zones) &&
    (f.modes.get z).reports (s.focus.zones.get z).state ((newZones s f k).get z).state

theorem zonesReported_reports :
    OnlyReports ((List.finRange 63).map .zone ++ [.cursor 3]) (zonesChanged s f k).length (zonesSettled s f k) (zonesReported s f k) := by
  have hlines := emitLines_reports (zonesSettled s f k) OwnLine.zone (zonesWritten f s.focus.zones (newZones s f k))
  have hnotices := hands_reports ((zonesWritten f s.focus.zones (newZones s f k)).foldl (fun s z => emitLine s (.zone z))
    (zonesSettled s f k)) (ns := focusChanges f s.focus.zones (newZones s f k)) fun n hn => by
      obtain ⟨z, -, rfl⟩ := List.mem_map.mp hn
      rfl
  refine (hlines.trans hnotices).mono (fun l hl => ?_) ?_
  · rcases List.mem_append.mp hl with h | h
    · obtain ⟨z, -, rfl⟩ := List.mem_map.mp h
      exact List.mem_append_left _ (List.mem_map.mpr ⟨z, List.mem_finRange z, rfl⟩)
    · exact List.mem_append_right _ h
  · rw [Nat.zero_add, focusChanges, List.length_map]
    exact le_refl _

theorem emitLines_linesIn {α : Type} (s : State) (l : α → OwnLine) (zs : List α) :
    LinesIn zs.length s (zs.foldl (fun s z => emitLine s (l z)) s) := by
  induction zs generalizing s with
  | nil => exact .of_ports
  | cons z zs ih => exact ((emitLine_linesIn s (l z)).trans (ih _)).mono (by simp [Nat.add_comm])

theorem zonesSettled_ports : (zonesSettled s f k).mem = s.mem ∧ (zonesSettled s f k).port = s.port ∧
    (zonesSettled s f k).notice = s.notice ∧ (zonesSettled s f k).caSel = s.caSel := by
  unfold zonesSettled
  exact ⟨rfl, rfl, rfl, rfl⟩

/-- R90: with places free, the notices of the zones stand in the ring in ascending order. -/
theorem zonesReported_recorded (hm : MemoryCanonical s) (hindices : IndicesInRange s) (hwork : s.port.work = [])
    (hroom : s.port.writes.length + (zonesWritten f s.focus.zones (newZones s f k)).length + 2 * (zonesChanged s f k).length ≤ 32)
    (hring : unconsumedCount s + (zonesChanged s f k).length ≤ 255) :
    (zonesReported s f k).notice.number = numberAfter s.notice.number (zonesChanged s f k).length ∧
      ∀ i z j, (zonesChanged s f k)[i]? = some z → j < 32 →
        (zonesReported s f k).mem.read (slotAddr s (slotAfter s.notice.writeIndex i) + j) =
          (noticeBytes (focusChangeNotice z (s.focus.zones.get z).state ((newZones s f k).get z))
            (numberAfter s.notice.number i)).getD j 0 := by
  have hlines := emitLines_linesIn (zonesSettled s f k) OwnLine.zone (zonesWritten f s.focus.zones (newZones s f k))
  have hsettled := zonesSettled_ports s f k
  have hstored := hlines.mem (by rw [MemoryCanonical, hsettled.1]; exact hm)
  obtain ⟨hwork', hwrites⟩ := hlines.room (by rw [hsettled.2.1]; exact hwork) (by rw [hsettled.2.1]; omega)
  have hnotice := hlines.notice
  have hcaSel := hlines.caSel
  have hnotices : focusChanges f s.focus.zones (newZones s f k) = (zonesChanged s f k).map fun z =>
      focusChangeNotice z (s.focus.zones.get z).state ((newZones s f k).get z) := rfl
  rw [zonesReported, hnotices]
  generalize (zonesWritten f s.focus.zones (newZones s f k)).foldl (fun s z => emitLine s (.zone z)) (zonesSettled s f k) = t at *
  have hnotice' : t.notice = s.notice := hnotice.trans hsettled.2.2.1
  have hcaSel' : t.caSel = s.caSel := hcaSel.trans hsettled.2.2.2
  rw [hsettled.2.1] at hwrites
  obtain ⟨hnumber, hrecords⟩ := hands_recorded (s := t) (ns := (zonesChanged s f k).map fun z =>
      focusChangeNotice z (s.focus.zones.get z).state ((newZones s f k).get z))
    (fun n hn => by
      obtain ⟨z, -, rfl⟩ := List.mem_map.mp hn
      rfl) hstored (by rw [hnotice']; exact hindices.write) (by rw [hnotice']; exact hindices.consumed) hwork'
    (by rw [List.length_map]; omega) (by rw [List.length_map, unconsumedCount, hnotice']; exact hring)
  rw [hnotice', List.length_map] at hnumber
  refine ⟨hnumber, fun i z j hi hj => ?_⟩
  have hread := hrecords i _ j (by rw [List.getElem?_map, hi]; rfl) hj
  rw [slotAddr, hcaSel', hnotice'] at hread
  exact hread

end

/-! ### What follows a measurement -/

/-- R73: the other bank goes on to be measured where it is FULL. -/
theorem nextMeasurement_eq (s : State) (k : BankId) : nextMeasurement s k = (s.setBank k idleBank).setBank k.other
    (if (s.bank k.other).state = .full then
      { s.bank k.other with state := .measuring, setup := s.focus.setup, gridChanged := false } else s.bank k.other) := by
  have hother : (s.setBank k idleBank).bank k.other = s.bank k.other := State.bank_setBank_other s k idleBank
  have hsetup : (s.setBank k idleBank).focus.setup = s.focus.setup := (setBank_viewFrame s k idleBank).setup
  have hsame (t : State) (i : BankId) : t.setBank i (t.bank i) = t := by cases i <;> rfl
  unfold nextMeasurement
  dsimp only
  rw [hother, hsetup]
  split
  · rfl
  · rw [← hother, hsame]

theorem nextMeasurement_banks (s : State) (k : BankId) :
    (nextMeasurement s k).bank k = idleBank ∧ (nextMeasurement s k).bank k.other =
      (if (s.bank k.other).state = .full then
        { s.bank k.other with state := .measuring, setup := s.focus.setup, gridChanged := false } else s.bank k.other) ∧
      ∃ a b, nextMeasurement s k = { s with focus := { s.focus with bankA := a, bankB := b } } := by
  have htwice : k.other.other = k := by cases k <;> rfl
  rw [nextMeasurement_eq]
  generalize (if (s.bank k.other).state = .full then
    { s.bank k.other with state := .measuring, setup := s.focus.setup, gridChanged := false } else s.bank k.other) = x
  refine ⟨?_, State.bank_setBank_same _ _ _, ?_⟩
  · have h := State.bank_setBank_other (s.setBank k idleBank) k.other x
    rw [htwice] at h
    exact h.trans (State.bank_setBank_same s k idleBank)
  · cases k
    · exact ⟨idleBank, x, rfl⟩
    · exact ⟨x, idleBank, rfl⟩

/-- R95: the state with a follow state and a lens controller. -/
def followSet (s : State) (m : FollowState) (l : Lens) : State := { s with focus := { s.focus with follow := m }, lens := l }

theorem formTarget_set (s : State) (f : FocusSetup) (e : Nat) (z : ZoneRecord) :
    formTarget s f e z = followSet s s.focus.follow (formTarget s f e z).lens := by
  unfold formTarget
  split
  · dsimp only
    split
    · rw [placeTarget, arbitrate_lens]
      rfl
    · rfl
  · rfl

theorem follow_set (s : State) (f : FocusSetup) (k : Bank) (p : Fin 63) :
    follow s f k p = followSet s (follow s f k p).focus.follow (follow s f k p).lens := by
  unfold follow
  split
  · rfl
  · split
    · rfl
    · split
      · rfl
      · rw [formTarget_set]
        rfl

/-- R95: without an exposure position, or not FOLLOWING, nothing follows. -/
theorem follow_none {s : State} (f : FocusSetup) {k : Bank} (p : Fin 63) (h : exposurePosition k = none ∨ s.focus.follow ≠ .following) :
    follow s f k p = s := by
  unfold follow
  rcases h with h | h
  · rw [h]
  · cases exposurePosition k with
    | none => rfl
    | some e => exact if_pos h

theorem follow_locks {s : State} (f : FocusSetup) {k : Bank} {p : Fin 63} {e : Nat} (he : exposurePosition k = some e)
    (hf : s.focus.follow = .following) (hm : s.focus.mode = .single) (hp : (s.focus.zones.get p).state = .inFocus) :
    follow s f k p = followSet s .locked s.lens := by
  rw [follow, he]
  exact (if_neg (not_not.mpr hf)).trans (if_pos (by simp [hm, hp]))

theorem follow_targets {s : State} (f : FocusSetup) {k : Bank} {p : Fin 63} {e : Nat} (he : exposurePosition k = some e)
    (hf : s.focus.follow = .following) (hm : s.focus.mode ≠ .single ∨ (s.focus.zones.get p).state ≠ .inFocus) :
    follow s f k p = formTarget s f e (s.focus.zones.get p) := by
  have hopen : ¬(decide (s.focus.mode = .single) && decide ((s.focus.zones.get p).state = .inFocus)) = true := by
    rw [Bool.and_eq_true, decide_eq_true_eq, decide_eq_true_eq, not_and_or]
    exact hm
  rw [follow, he]
  exact (if_neg (not_not.mpr hf)).trans (if_neg hopen)

/-- R95: the target, where a READY lens has information and a report. -/
theorem formTarget_eq {s : State} (f : FocusSetup) (e : Nat) (z : ZoneRecord) {info : LensInfo} {r : PositionReport} {target : Nat}
    (hready : s.lens.state = .ready) (hinfo : s.lens.info = some info) (hr : s.lens.report = some r)
    (ht : (target : Int) = min (max ((e : Int) + z.steps) info.minimum) info.maximum) :
    formTarget s f e z = if f.deadband ≤ absDiff target r.position then placeTarget s target else s := by
  have hclamp : clampTarget info (e + z.steps) = target := by rw [clampTarget, ← ht, Int.toNat_natCast]
  rw [formTarget, hinfo, hr]
  simp only [hclamp, hready, decide_true, Bool.true_and, decide_eq_true_eq]

theorem formTarget_unready {s : State} (f : FocusSetup) (e : Nat) (z : ZoneRecord) (h : s.lens.state ≠ .ready) :
    formTarget s f e z = s := by
  unfold formTarget
  split
  · exact if_neg (by simp [h])
  · rfl

section
variable (s : State) (f : FocusSetup) (k : Bank)

theorem zonesSettled_blocks : (zonesSettled s f k).lens = s.lens ∧ (zonesSettled s f k).now = s.now ∧
    (zonesSettled s f k).shots = s.shots ∧
    (zonesSettled s f k).focus = { s.focus with zones := newZones s f k, primary := newPrimary s f k } := by
  unfold zonesSettled
  exact ⟨rfl, rfl, rfl, rfl⟩

theorem zonesReported_blocks : (zonesReported s f k).lens = s.lens ∧ (zonesReported s f k).now = s.now ∧
    (zonesReported s f k).shots = s.shots ∧
    (zonesReported s f k).focus = { s.focus with zones := newZones s f k, primary := newPrimary s f k } := by
  have hreported := (zonesReported_reports s f k).reported
  obtain ⟨h1, h2, h3, h4⟩ := zonesSettled_blocks s f k
  exact ⟨(hreported.field State.lens).trans h1, (hreported.field State.now).trans h2, (hreported.field State.shots).trans h3,
    (hreported.field State.focus).trans h4⟩

/-- R95: what follows the zones of a measurement is a follow state and the lens controller. -/
theorem resultsStand_set : resultsStand s f k =
    followSet (zonesReported s f k) (resultsStand s f k).focus.follow (resultsStand s f k).lens := by
  rw [resultsStand_eq]
  split
  · rfl
  · split
    · exact follow_set _ f k _
    · rfl

theorem resultsStand_focus : (resultsStand s f k).focus.zones = newZones s f k ∧ (resultsStand s f k).focus.primary = newPrimary s f k ∧
    (resultsStand s f k).focus.setup = s.focus.setup ∧ ∀ i, (resultsStand s f k).bank i = s.bank i := by
  obtain ⟨-, -, -, hfocus⟩ := zonesReported_blocks s f k
  have hset (m : FollowState) (l : Lens) : (followSet (zonesReported s f k) m l).focus.zones = newZones s f k ∧
      (followSet (zonesReported s f k) m l).focus.primary = newPrimary s f k ∧
      (followSet (zonesReported s f k) m l).focus.setup = s.focus.setup ∧
      ∀ i, (followSet (zonesReported s f k) m l).bank i = s.bank i := by
    rw [followSet, hfocus]
    exact ⟨rfl, rfl, rfl, fun i => by cases i <;> rfl⟩
  rw [resultsStand_set]
  exact hset _ _

theorem resultsStand_reports (a b : Bank) :
    OnlyReports ((List.finRange 63).map .zone ++ [.cursor 3]) (zonesChanged s f k).length
      { s with
        focus := { (resultsStand s f k).focus with bankA := a, bankB := b }
        lens := (resultsStand s f k).lens }
      { resultsStand s f k with focus := { (resultsStand s f k).focus with bankA := a, bankB := b } } := by
  have hreports (x : FocusUnit) (l : Lens) := (zonesReported_reports s f k).map fun u => { u with focus := x, lens := l }
  have hsettled (x : FocusUnit) (l : Lens) : ({ zonesSettled s f k with focus := x, lens := l } : State) = { s with focus := x, lens := l } := by
    unfold zonesSettled
    rfl
  have hset : ({ resultsStand s f k with focus := { (resultsStand s f k).focus with bankA := a, bankB := b } } : State) =
      { zonesReported s f k with
        focus := { (resultsStand s f k).focus with bankA := a, bankB := b }
        lens := (resultsStand s f k).lens } := by
    have e := congrArg (fun u : State => { u with focus := { (resultsStand s f k).focus with bankA := a, bankB := b } })
      (resultsStand_set s f k)
    exact e
  rw [hset, ← hsettled]
  exact hreports _ _

theorem resultsStand_none (h : candidateZones f s.focus.candidates (measuredZones f k s.focus.zones) = [] ∨ exposurePosition k = none ∨
    s.focus.follow ≠ .following) : resultsStand s f k = zonesReported s f k := by
  obtain ⟨-, -, -, hfocus⟩ := zonesReported_blocks s f k
  rw [resultsStand_eq]
  split
  · rfl
  · rcases h with h | h
    · rw [h]
      rfl
    · rw [follow_none f _ (by rw [hfocus]; exact h), ite_self]

theorem resultsStand_follow {s : State} {f : FocusSetup} {k : Bank} {z : Fin 63}
    (h : candidateZones f s.focus.candidates (measuredZones f k s.focus.zones) ≠ []) (hz : newPrimary s f k = some z) :
    resultsStand s f k = follow (zonesReported s f k) f k z := by
  rw [resultsStand_eq, hz]
  exact if_pos (by simpa using h)

end

end Sys2Proof.Machine

open Sys2Proof Sys2Proof.Machine

/-- Settles O45. -/
theorem measurementSettlesZones : Obligations.MeasurementSettlesZones := by
  intro s k f other hbank hsetup hother
  have hexec : exec .measurementComplete s = .next (nextMeasurement (completeMeasurement s (s.bank k)) k) := by
    show execMeasurementComplete s = _
    rw [execMeasurementComplete, hbank]
  refine ⟨fun hgrid measured new primary zs hmeasured hprimary hnew hzs => ?_, fun hgrid => ?_⟩
  · have hstands : completeMeasurement s (s.bank k) = resultsStand s f (s.bank k) := by
      rw [completeMeasurement, hsetup]
      exact if_neg (by rw [hgrid]; decide)
    obtain ⟨hlens, hnow, hshots, hfocus⟩ := zonesReported_blocks s f (s.bank k)
    have hset := resultsStand_set s f (s.bank k)
    have hreports := zonesReported_reports s f (s.bank k)
    have hrecorded := zonesReported_recorded s f (s.bank k)
    have hnone := resultsStand_none s f (s.bank k)
    obtain ⟨hk, ho, a, b, e⟩ := nextMeasurement_banks (resultsStand s f (s.bank k)) k
    obtain rfl : zs = zonesChanged s f (s.bank k) := by rw [hzs, hnew, hprimary, hmeasured]; rfl
    obtain rfl : new = newZones s f (s.bank k) := by rw [hnew, hprimary, hmeasured]; rfl
    obtain rfl : primary = newPrimary s f (s.bank k) := by rw [hprimary, hmeasured]; rfl
    rw [hexec, hstands]
    rw [e] at hk ho ⊢
    have hnotice : (resultsStand s f (s.bank k)).notice = (zonesReported s f (s.bank k)).notice := by
      rw [hset]
      rfl
    have hmem : (resultsStand s f (s.bank k)).mem = (zonesReported s f (s.bank k)).mem := by
      rw [hset]
      rfl
    obtain ⟨hzones, hprimary', hsetup', hbanks⟩ := resultsStand_focus s f (s.bank k)
    rw [hbanks k.other, hsetup', ← hother] at ho
    refine ⟨_, rfl, hzones, hprimary', hk, ho, resultsStand_reports s f (s.bank k) a b, fun hm hindices hwork hroom hring => ?_,
      fun h => ?_, fun z e hcandidates hz he hfollowing => ⟨fun hsingle hin => ?_, fun hopen => ?_⟩⟩
    · obtain ⟨hnumber, hrecords⟩ := hrecorded hm hindices hwork hroom hring
      rw [← hnotice] at hnumber
      rw [← hmem] at hrecords
      exact ⟨hnumber, hrecords⟩
    · rw [hmeasured] at h
      rw [hnone h]
      exact ⟨by rw [hfocus], hlens⟩
    · rw [hmeasured] at hcandidates
      have hlocks := follow_locks (s := zonesReported s f (s.bank k)) f (p := z) he (by rw [hfocus]; exact hfollowing)
        (by rw [hfocus]; exact hsingle) (by rw [hfocus]; exact hin)
      rw [resultsStand_follow hcandidates hz, hlocks]
      exact ⟨rfl, hlens⟩
    · rw [hmeasured] at hcandidates
      have htargets := follow_targets (s := zonesReported s f (s.bank k)) f (p := z) he (by rw [hfocus]; exact hfollowing)
        (by rw [hfocus]; exact hopen)
      have hzone : (zonesReported s f (s.bank k)).focus.zones.get z = (newZones s f (s.bank k)).get z := by rw [hfocus]
      have hfollow : (formTarget (zonesReported s f (s.bank k)) f e ((newZones s f (s.bank k)).get z)).focus.follow = .following := by
        rw [formTarget_set]
        show (zonesReported s f (s.bank k)).focus.follow = _
        rw [hfocus]
        exact hfollowing
      rw [hzone] at htargets
      rw [resultsStand_follow hcandidates hz, htargets]
      refine ⟨hfollow, fun hunready => ?_, fun info r target hready hinfo hr htarget => ?_⟩
      · rw [formTarget_unready f e _ (by rw [hlens]; exact hunready)]
        exact hlens
      · have hform := formTarget_eq (s := zonesReported s f (s.bank k)) f e ((newZones s f (s.bank k)).get z)
          (by rw [hlens]; exact hready) (by rw [hlens]; exact hinfo) (by rw [hlens]; exact hr) htarget
        rw [hform]
        refine ⟨fun hrange => by omega, fun hnear => ?_, fun hfar => ⟨fun hbusy => ?_, fun hfree hstop hmessages hcount => ?_⟩⟩
        · rw [if_neg (Nat.not_le.mpr hnear)]
          exact hlens
        · rw [if_pos hfar, placeTarget, arbitrate_busy (.inl (by rw [hlens]; exact hbusy)), hlens]
        · rw [if_pos hfar, placeTarget]
          have hchosen := (arbiterChose { zonesReported s f (s.bank k) with
              lens := { (zonesReported s f (s.bank k)).lens with drive := some target } }).drive
            (by rw [hlens]; exact hfree) (by rw [hlens]; exact hready) (by rw [hlens]; exact hstop) target r _ rfl (by rw [hlens]; exact hr)
            (by show (zonesReported s f (s.bank k)).shots.toList.countP _ = 0; rw [hshots]; exact hcount)
            (.inl (by rw [hlens]; exact hmessages)) rfl
          rw [hchosen]
          exact ⟨rfl, _, rfl, rfl, hnow⟩
  · have hskipped : completeMeasurement s (s.bank k) = publish (raiseSkipped s 1) 8 := by
      rw [completeMeasurement, hsetup]
      exact if_pos hgrid
    have hreported := publish_reported (raiseSkipped s 1) 8
    have hotherBank : (publish (raiseSkipped s 1) 8).bank k.other = s.bank k.other := by
      refine (hreported.field fun u => u.bank k.other).trans ?_
      cases k <;> rfl
    have hsetup' : (publish (raiseSkipped s 1) 8).focus.setup = s.focus.setup := hreported.field fun u => u.focus.setup
    obtain ⟨hk, ho, a, b, e⟩ := nextMeasurement_banks (publish (raiseSkipped s 1) 8) k
    rw [hotherBank, hsetup', ← hother] at ho
    rw [hexec, hskipped]
    rw [e] at hk ho ⊢
    exact ⟨_, rfl, hreported.field fun u => u.focus.zones, hreported.field fun u => u.focus.primary,
      hreported.field fun u => u.focus.follow, hreported.field State.lens, hreported.field fun u => u.view.skipped, hk, ho,
      hreported.field State.shots, hreported.field State.pool, hreported.field State.maps⟩

end

section
/-! PROOFS. What the Development Engine does when it begins a job, and REDEVELOP. Settles O52. -/

namespace Sys2Proof.Machine

set_option Elab.async false

/-! ### A replay job asks for a line (R7, R132) -/

/-- Line l of window w has been asked for: through the raw map, or as zeros from an empty entry. -/
structure LineRequested (s t : State) (w : Fin 64) (l : Nat) : Prop where
  blocks : { t with port := s.port, engine := s.engine } = s
  engine : t.engine = { s.engine with
    replayLine := if (s.rawEntry w (64 * l / Config.granule)).isNone then .zeros else .issued }
  unmapped : s.rawEntry w (64 * l / Config.granule) = none → t.port = s.port
  asked : ∀ n, s.rawEntry w (64 * l / Config.granule) = some n → s.port.heldReads = [] → s.port.reads.length < 16 →
    ∃ e, t.port.reads = s.port.reads ++ [e] ∧ e.purpose = .replay ∧
      e.addr = n * Config.granule + 64 * l % Config.granule

theorem requestLine_requested (s : State) (w : Fin 64) (l : Nat) : LineRequested s (requestLine s w l) w l := by
  obtain ⟨hn, ht⟩ | ⟨n, hn, ht⟩ := requestLine_cases (s := s) w l
  · rw [ht]
    exact ⟨rfl, by rw [hn]; rfl, fun _ => rfl, fun n h => by simp [hn] at h⟩
  · rw [ht]
    have hasked := issueRead_asked (s.setEngine { s.engine with replayLine := .issued }) .replay
      (n * Config.granule + 64 * l % Config.granule)
    refine ⟨congrArg (fun u : State => { u with engine := s.engine }) hasked.blocks, ?_, fun h => by simp [hn] at h,
      fun m hm hheld hroom => ?_⟩
    · have e := congrArg State.engine hasked.blocks
      rw [hn]
      exact e
    · obtain rfl : n = m := Option.some.inj (hn.symm.trans hm)
      obtain ⟨-, -, h⟩ | ⟨h, -⟩ := issueRead_cases (s := s.setEngine { s.engine with replayLine := .issued }) .replay
        (n * Config.granule + 64 * l % Config.granule)
      · exact ⟨_, congrArg (·.port.reads) h, rfl, rfl⟩
      · exact absurd h (not_or.mpr ⟨fun h => h hheld, Nat.not_le_of_lt hroom⟩)

/-- A block that asking for a line does not touch. -/
theorem LineRequested.field {α : Type} {s t : State} {w : Fin 64} {l : Nat} (h : LineRequested s t w l) (g : State → α)
    (hg : ∀ (u : State) (p : MemoryPort) (e : Engine), g { u with port := p, engine := e } = g u := by intros; rfl) : g t = g s := by
  rw [← hg t s.port s.engine, h.blocks]

/-! ### A job begins or resumes (R132) -/

theorem runOfJob_row (x : Shot) (p : Profile) (j : Job) :
    (runOfJob x p j).nextLine = j.nextRow * linesPerRow p.width ∧ (runOfJob x p j).acc = [] := by
  unfold runOfJob
  split <;> exact ⟨rfl, rfl⟩

@[simp] theorem recounted_shot (s : State) (a : Bool) (c : Option (Fin 64)) (f : Bool) (v : Fin 64) :
    (recounted s a c f).shot v = s.shot v := rfl
@[simp] theorem recounted_engine (s : State) (a : Bool) (c : Option (Fin 64)) (f : Bool) :
    (recounted s a c f).engine = s.engine := rfl
@[simp] theorem readyMarked_shot (s : State) (w v : Fin 64) : (readyMarked s w).shot v = s.shot v := rfl
@[simp] theorem readyMarked_engine (s : State) (w : Fin 64) : (readyMarked s w).engine = s.engine := rfl

@[simp] theorem recounted_maps (s : State) (a : Bool) (c : Option (Fin 64)) (f : Bool) :
    (recounted s a c f).maps = s.maps := rfl
@[simp] theorem recounted_port (s : State) (a : Bool) (c : Option (Fin 64)) (f : Bool) :
    (recounted s a c f).port = s.port := rfl
@[simp] theorem readyMarked_maps (s : State) (w : Fin 64) :
    (readyMarked s w).maps = s.maps := rfl
@[simp] theorem readyMarked_port (s : State) (w : Fin 64) :
    (readyMarked s w).port = s.port := rfl

/-- R132, R136: the state in which job j, begun or resumed, asks for its line, apart from reports. -/
def jobStarted (s : State) (j : Job) (rest : List Job) (p : Profile) : State :=
  readyMarked ((s.setEngine { s.engine with
    activity := .replay
    run := runOfJob (s.shot j.window) p j
    queue := { j with begun := true, saved := none } :: rest }).setShot j.window { s.shot j.window with dev := .replaying }) j.window

theorem refreshReady_after {s t : State} (h : Reported s t) (w : Fin 64) : Reported (readyMarked s w) (refreshReady t w) :=
  (h.map fun u => readyMarked u w).trans (refreshReady_reported t w)

theorem changeDev_reported (s : State) (w : Fin 64) (f : Shot → Shot) :
    Reported (s.setShot w (f (s.shot w))) (changeDev s w f) := mirror_reported _ _ _

theorem changeDev_after {s t : State} (h : Reported s t) (w : Fin 64) (f : Shot → Shot) :
    Reported (s.setShot w (f (s.shot w))) (changeDev t w f) :=
  (h.map fun u => u.setShot w (f (u.shot w))).trans (changeDev_reported t w f)

theorem beginReplay_eq {s : State} {j : Job} {p : Profile} (rest : List Job) (hp : (s.shot j.window).profile = some p) :
    ∃ t, Reported (jobStarted s j rest p) t ∧ beginReplay s j rest = requestLine t j.window (j.nextRow * linesPerRow p.width) := by
  simp only [beginReplay, hp, (runOfJob_row _ p j).1]
  exact ⟨_, refreshReady_after (changeDev_after (publish_reported _ 5) j.window fun x => { x with dev := .replaying }) _, rfl⟩

/-- What neither the start of a job nor its first request touches. -/
theorem beginReplay_field {α : Type} {s : State} {j : Job} {p : Profile} (rest : List Job)
    (hp : (s.shot j.window).profile = some p) (g : State → α)
    (hg : ∀ (u : State) (m : Memory) (q : MemoryPort) (n : NoticeUnit) (e : Engine) (t : TetherQueue) (xs : Vector Shot 64),
      g { u with mem := m, port := q, notice := n, engine := e, tether := t, shots := xs } = g u := by intros; rfl) :
    g (beginReplay s j rest) = g s := by
  obtain ⟨t, hrep, ht⟩ := beginReplay_eq rest hp
  rw [ht, (requestLine_requested t _ _).field g fun u q e => hg u u.mem q u.notice e u.tether u.shots,
    hrep.field g fun u m q n => hg u m q n u.engine u.tether u.shots]
  exact hg s s.mem s.port s.notice _ _ _

theorem beginReplay_shots {s : State} {j : Job} {p : Profile} (rest : List Job) (hp : (s.shot j.window).profile = some p) :
    (beginReplay s j rest).shots = s.shots.set j.window.val { s.shot j.window with dev := .replaying } := by
  obtain ⟨t, hrep, ht⟩ := beginReplay_eq rest hp
  rw [ht, (requestLine_requested t _ _).field State.shots]
  exact hrep.field State.shots

theorem beginReplay_begun {s : State} {j : Job} {p : Profile} (rest : List Job) (hp : (s.shot j.window).profile = some p) :
    JobBegun s (beginReplay s j rest) j rest p := by
  have hshot : (beginReplay s j rest).shot j.window = { s.shot j.window with dev := .replaying } :=
    (congrArg (·.get j.window) (beginReplay_shots rest hp)).trans (State.shot_setShot_same s j.window _)
  obtain ⟨t, hrep, ht⟩ := beginReplay_eq rest hp
  have hreq := requestLine_requested t j.window (j.nextRow * linesPerRow p.width)
  rw [← ht] at hreq
  have hmaps : t.maps = s.maps := hrep.field State.maps
  have hentry (g : Nat) : t.rawEntry j.window g = s.rawEntry j.window g := by
    simp only [State.rawEntry, State.mapsOf, hmaps]
  have hreads : t.port.reads = s.port.reads := hrep.portField MemoryPort.reads
  have hheld : t.port.heldReads = s.port.heldReads := hrep.portField MemoryPort.heldReads
  have hengine : t.engine = { s.engine with
      activity := .replay
      run := runOfJob (s.shot j.window) p j
      queue := { j with begun := true, saved := none } :: rest } := hrep.field State.engine
  have hrun : (beginReplay s j rest).engine.run = runOfJob (s.shot j.window) p j := by rw [hreq.engine, hengine]
  refine ⟨?_, ?_, ?_, ?_, fun hb => ?_, fun pr hb hs => ?_, fun hn => ⟨?_, ?_⟩, fun n hn => ⟨?_, fun hh hroom => ?_⟩⟩
  · rw [hreq.engine, hengine]
  · rw [hreq.engine, hengine]
  · rw [hshot]
  · rw [hrun]
    exact runOfJob_row _ p j
  · rw [hrun, hshot]
    simp [runOfJob, hb, freshRun]
  · rw [hrun]
    simp [runOfJob, hb, hs]
  · rw [hreq.engine, hentry, hn]
    rfl
  · rw [hreq.unmapped (by rw [hentry, hn]), hreads]
  · rw [hreq.engine, hentry, hn]
    rfl
  · obtain ⟨e, he, hpurpose, haddr⟩ := hreq.asked n (by rw [hentry, hn]) (by rw [hheld, hh]) (by rw [hreads]; exact hroom)
    exact ⟨e, by rw [he, hreads], hpurpose, haddr⟩

/-- What a begun job is compared with: the raw maps and the reads before it. -/
theorem JobBegun.since {r s t : State} {j : Job} {rest : List Job} {p : Profile} (h : JobBegun s t j rest p)
    (maps : s.maps = r.maps) (reads : s.port.reads = r.port.reads) (held : s.port.heldReads = r.port.heldReads) :
    JobBegun r t j rest p := by
  have hentry (g : Nat) : s.rawEntry j.window g = r.rawEntry j.window g := by
    simp only [State.rawEntry, State.mapsOf, maps]
  obtain ⟨activity, queue, status, row, fresh, resumed, unmapped, asked⟩ := h
  rw [hentry, reads] at unmapped
  rw [hentry, reads, held] at asked
  exact ⟨activity, queue, status, row, fresh, resumed, unmapped, asked⟩

/-- What shows that a job has begun: the engine, the record and the reads. -/
theorem JobBegun.shown {s t u : State} {j : Job} {rest : List Job} {p : Profile} (h : JobBegun s t j rest p)
    (engine : u.engine = t.engine) (shot : u.shot j.window = t.shot j.window) (reads : u.port.reads = t.port.reads) :
    JobBegun s u j rest p := by
  obtain ⟨activity, queue, status, row, fresh, resumed, unmapped, asked⟩ := h
  rw [← engine] at activity queue row fresh resumed unmapped asked
  rw [← shot] at status fresh
  rw [← reads] at unmapped asked
  exact ⟨activity, queue, status, row, fresh, resumed, unmapped, asked⟩

/-! ### The engine chooses (R127) -/

theorem engineChoose_busy {s : State} (h : s.engine.activity ≠ .idle) : engineChoose s = s := if_neg h

theorem inlineShot_none {s : State} (h : ∀ v, (s.shot v).dev ≠ .inline) : inlineShot s = none := by
  rw [inlineShot, List.find?_eq_none]
  intro v _ hv
  exact h v (of_decide_eq_true hv)

theorem engineChoose_job {s : State} {j : Job} {rest : List Job} (h : s.engine.activity = .idle)
    (hinline : ∀ v, (s.shot v).dev ≠ .inline) (hq : s.engine.queue = j :: rest) (hs : (s.shot j.window).state ≠ .capturing) :
    engineChoose s = beginReplay s j rest := by
  simp only [engineChoose, if_pos h, inlineShot_none hinline, hq]
  exact if_neg hs

/-! ### REDEVELOP (R138) -/

section
variable {s : State} {o : OrderRecord} {w : Fin 64} {d : DevSet} (hn : Names s o w) (img : List Byte)
  (hs : (s.shot w).state = .sealed) (hd : (s.shot w).devSet = some d) (hdev : (s.shot w).developed = true)
  (ht : field o.params 24 1 ≤ 1)
include hn hs hd hdev ht

theorem redevelopRule_busy (h : (s.shot w).dev = .inline ∨ (s.shot w).dev = .replaying ∨ (s.shot w).tether = .sending) :
    redevelopRule o img s = (s, .busy) := by
  rw [redevelopRule, forShot_named hn]
  simp only [if_neg (Nat.not_lt_of_le ht), hs, hd, hdev]
  exact if_pos (by simpa only [Bool.or_eq_true, decide_eq_true_eq, or_assoc] using h)

theorem redevelopRule_anew (h : ¬((s.shot w).dev = .inline ∨ (s.shot w).dev = .replaying ∨ (s.shot w).tether = .sending))
    (hq : (s.shot w).dev ≠ .queued) : redevelopRule o img s = redevelopAnew s w (newSet o d) := by
  rw [redevelopRule, forShot_named hn]
  simp only [if_neg (Nat.not_lt_of_le ht), hs, hd, hdev, if_neg hq]
  exact if_neg (by simpa only [Bool.or_eq_true, decide_eq_true_eq, or_assoc] using h)

end

/-- R138: the record of a shot that is to be developed again. -/
def reopened (x : Shot) (n : Nat) (d : DevSet) : Shot :=
  { x with devSet := some d, reservation := x.reservation + n, dev := .queued, reason := none, checkOnly := false }

/-- R131, R138: the DEVELOP job of a shot that is to be developed again. -/
def redevelopJob (s : State) (w : Fin 64) (d : DevSet) : Job :=
  { window := w, seq := (s.shot w).seq, kind := .develop, set := some d, nextRow := 0, begun := false, saved := none }

/-- R131: a job joins the tail of the replay queue. -/
def jobJoined (s : State) (w : Fin 64) (k : JobKind) : State :=
  s.setEngine { s.engine with queue := s.engine.queue ++
    [{ window := w, seq := (s.shot w).seq, kind := k, set := (s.shot w).devSet, nextRow := 0, begun := false, saved := none }] }

@[simp] theorem jobJoined_shot (s : State) (w : Fin 64) (k : JobKind) (v : Fin 64) : (jobJoined s w k).shot v = s.shot v := rfl
@[simp] theorem jobJoined_maps (s : State) (w : Fin 64) (k : JobKind) :
    (jobJoined s w k).maps = s.maps := rfl
@[simp] theorem jobJoined_port (s : State) (w : Fin 64) (k : JobKind) :
    (jobJoined s w k).port = s.port := rfl
theorem jobJoined_engine (s : State) (w : Fin 64) (k : JobKind) : (jobJoined s w k).engine = { s.engine with
    queue := s.engine.queue ++ [{ window := w, seq := (s.shot w).seq, kind := k, set := (s.shot w).devSet, nextRow := 0, begun := false, saved := none }] } := rfl

theorem offerJob_room {s : State} (w : Fin 64) (k : JobKind) (h : s.engine.queue.length < 16) :
    offerJob s w k = (publish (jobJoined s w k) 5, true) := if_pos h

theorem offerJob_full {s : State} (w : Fin 64) (k : JobKind) (h : 16 ≤ s.engine.queue.length) :
    offerJob s w k = (s, false) := if_neg (Nat.not_lt_of_le h)

theorem offerJob_after {s t : State} (h : Reported s t) (w : Fin 64) (k : JobKind) (hroom : s.engine.queue.length < 16) :
    Reported (jobJoined s w k) (offerJob t w k).1 := by
  rw [offerJob_room w k (by rw [h.field State.engine]; exact hroom)]
  exact (h.map fun u => jobJoined u w k).trans (publish_reported _ 5)

theorem setInForce_reported (s : State) (w : Fin 64) (d : DevSet) :
    Reported (s.setShot w { s.shot w with devSet := some d }) (setInForce s w d) := mirrorChanged_reported _ _ _

theorem takeReservation_reported (s : State) (w : Fin 64) (n : Nat) : ∃ a c f,
    Reported (recounted (s.setShot w { s.shot w with reservation := (s.shot w).reservation + n }) a c f) (takeReservation s w n) := by
  by_cases hn : n = 0
  · refine ⟨s.pool.armed, s.table.cursor, s.table.admissible, ?_⟩
    rw [takeReservation, if_pos hn, hn]
    rw [show ({ s.shot w with reservation := (s.shot w).reservation + 0 } : Shot) = s.shot w from rfl, State.setShot_shot]
    exact .refl s
  · rw [takeReservation, if_neg hn]
    obtain ⟨a, c, f, h⟩ := poolChanged_reported s
      (mirror (s.modShot w fun x => { x with reservation := x.reservation + n }) w [1])
    exact ⟨a, c, f, ((mirror_reported _ _ _).map fun u => recounted u a c f).trans h⟩

/-- R138: the shot in window w is QUEUED again with set d and n more granules reserved, its job at the tail. -/
structure Reopened (s t : State) (w : Fin 64) (n : Nat) (d : DevSet) : Prop where
  shot : t.shot w = reopened (s.shot w) n d
  others : ∀ v, v ≠ w → t.shot v = s.shot v
  engine : t.engine = { s.engine with queue := s.engine.queue ++ [redevelopJob s w d] }
  maps : t.maps = s.maps
  reads : t.port.reads = s.port.reads
  held : t.port.heldReads = s.port.heldReads

theorem releasable_reopened (x : Shot) (n : Nat) (d : DevSet) : (reopened x n d).releasable = false := by
  simp [Shot.releasable, reopened]

theorem redevelopAnew_full {s : State} {w : Fin 64} (d : DevSet)
    (h : 16 ≤ s.engine.queue.length ∨ available s < shortfall (s.shot w)) : redevelopAnew s w d = (s, .full) := by
  rw [redevelopAnew]
  exact if_pos (by simp only [Bool.or_eq_true, decide_eq_true_eq]; exact h)

/-- R138: the shot is QUEUED again and its job has joined the queue, before the release check. -/
def redevelopReady (s : State) (w : Fin 64) (d : DevSet) : State :=
  refreshReady (changeDev (offerJob (setInForce (takeReservation s w (shortfall (s.shot w))) w d) w .develop).1 w
    fun x => { x with dev := .queued, reason := none, checkOnly := false }) w

theorem redevelopAnew_eq {s : State} {w : Fin 64} (d : DevSet) (hroom : s.engine.queue.length < 16)
    (hcover : shortfall (s.shot w) ≤ available s) :
    redevelopAnew s w d = (engineChoose (releaseCheck (redevelopReady s w d) w), .done) := by
  have hnot : ¬((decide (Config.replayPlaces ≤ s.engine.queue.length) || decide (available s < shortfall (s.shot w))) = true) := by
    simp only [Bool.or_eq_true, decide_eq_true_eq]
    exact not_or.mpr ⟨Nat.not_le_of_lt hroom, Nat.not_lt_of_le hcover⟩
  exact if_neg hnot

theorem redevelopReady_reported {s : State} {w : Fin 64} (d : DevSet) (hroom : s.engine.queue.length < 16) : ∃ a c f,
    Reported (readyMarked ((jobJoined (recounted (s.setShot w { s.shot w with
      reservation := (s.shot w).reservation + shortfall (s.shot w), devSet := some d }) a c f) w .develop).setShot w
        (reopened (s.shot w) (shortfall (s.shot w)) d)) w) (redevelopReady s w d) := by
  obtain ⟨a, c, f, htaken⟩ := takeReservation_reported s w (shortfall (s.shot w))
  have hforce := (htaken.map fun u => u.setShot w { u.shot w with devSet := some d }).trans
    (setInForce_reported (takeReservation s w (shortfall (s.shot w))) w d)
  have hshot : (recounted (s.setShot w { s.shot w with reservation := (s.shot w).reservation + shortfall (s.shot w) }) a c f).setShot w
      { (recounted (s.setShot w { s.shot w with reservation := (s.shot w).reservation + shortfall (s.shot w) }) a c f).shot w with
        devSet := some d } =
      recounted (s.setShot w { s.shot w with
        reservation := (s.shot w).reservation + shortfall (s.shot w), devSet := some d }) a c f := by
    rw [recounted_shot, State.shot_setShot_same]
    exact congrArg (fun u => recounted u a c f) (State.setShot_setShot s w _ _)
  have hforce := hshot ▸ hforce
  have hoffer := offerJob_after hforce w .develop hroom
  have hready := refreshReady_after (changeDev_after hoffer w fun x => { x with dev := .queued, reason := none, checkOnly := false }) w
  rw [jobJoined_shot, recounted_shot, State.shot_setShot_same] at hready
  exact ⟨a, c, f, hready⟩

theorem redevelopReady_reopened {s : State} {w : Fin 64} (d : DevSet) (hroom : s.engine.queue.length < 16) :
    Reopened s (redevelopReady s w d) w (shortfall (s.shot w)) d := by
  obtain ⟨a, c, f, h⟩ := redevelopReady_reported (w := w) d hroom
  generalize redevelopReady s w d = t at h ⊢
  have hshot (v : Fin 64) := h.field fun u => u.shot v
  have hengine := h.field State.engine
  have hmaps := h.field State.maps
  have hreads := h.portField MemoryPort.reads
  have hheld := h.portField MemoryPort.heldReads
  simp only [readyMarked_maps, State.setShot_maps, jobJoined_maps, recounted_maps] at hmaps
  simp only [readyMarked_port, State.setShot_port, jobJoined_port, recounted_port] at hreads hheld
  simp only [readyMarked_shot] at hshot
  rw [readyMarked_engine, State.setShot_engine, jobJoined_engine, recounted_shot, State.shot_setShot_same, recounted_engine,
    State.setShot_engine] at hengine
  refine ⟨?_, fun v hv => ?_, hengine, hmaps, hreads, hheld⟩
  · rw [hshot, State.shot_setShot_same]
  · rw [hshot, State.shot_setShot_other _ _ _ _ hv, jobJoined_shot, recounted_shot, State.shot_setShot_other _ _ _ _ hv]

theorem redevelopAnew_room {s : State} {w : Fin 64} (d : DevSet) (hroom : s.engine.queue.length < 16)
    (hcover : shortfall (s.shot w) ≤ available s) :
    ∃ t, Reopened s t w (shortfall (s.shot w)) d ∧ redevelopAnew s w d = (engineChoose t, .done) := by
  have h := redevelopReady_reopened (w := w) d hroom
  refine ⟨_, h, ?_⟩
  rw [redevelopAnew_eq d hroom hcover, releaseCheck_kept fun _ => by rw [h.shot, releasable_reopened]]

end Sys2Proof.Machine

open Sys2Proof Sys2Proof.Machine

/-- Settles O52: the refusals are those of the rule; otherwise the job joins the tail, and an IDLE engine without other work takes it
at once. -/
theorem redevelopQueuesJob : Obligations.RedevelopQueuesJob := by
  intro s o img w d hd hn hs hset hdev ht
  have hexec : exec .redevelop s = runOrder s .redevelop redevelopRule := rfl
  rw [hexec]
  have hquiet (h : (s.shot w).dev = .done ∨ (s.shot w).dev = .failed) (htether : (s.shot w).tether ≠ .sending) :
      redevelopRule o img s = redevelopAnew s w (newSet o d) := by
    obtain h | h := h <;> exact redevelopRule_anew hn img hs hset hdev ht (by simp [h, htether])
      (by simp [h])
  refine ⟨fun h => runOrder_unchanged hd (redevelopRule_busy hn img hs hset hdev ht h), fun hdone htether =>
    ⟨fun h => runOrder_unchanged hd ((hquiet hdone htether).trans (redevelopAnew_full _ h)), fun hroom hcover hactive => ?_,
      fun p hq hcover hidle hinline hp => ?_⟩⟩
  · obtain ⟨t, hopened, hanew⟩ := redevelopAnew_room (newSet o d) hroom hcover
    rw [engineChoose_busy (by rw [hopened.engine]; exact hactive)] at hanew
    have hshot : (t.owingSince s).shot w = _ := (owing_field t s fun u => u.shot w).trans hopened.shot
    have hengine : (t.owingSince s).engine = _ := (owing_field t s State.engine).trans hopened.engine
    refine ⟨t.owingSince s, runOrder_done hd ((hquiet hdone htether).trans hanew), ?_⟩
    rw [hshot, hengine]
    exact ⟨rfl, rfl, rfl, rfl, rfl, rfl, rfl, fun v hv => (owing_field t s fun u => u.shot v).trans (hopened.others v hv)⟩
  · obtain ⟨t, hopened, hanew⟩ := redevelopAnew_room (newSet o d) (by rw [hq]; decide) hcover
    have hjob : t.engine.queue = [redevelopJob s w (newSet o d)] := by rw [hopened.engine, hq]; rfl
    have hprofile : (t.shot (redevelopJob s w (newSet o d)).window).profile = some p :=
      (congrArg Shot.profile hopened.shot).trans hp
    have hstays (v : Fin 64) : (t.shot v).dev ≠ .inline := by
      by_cases hv : v = w
      · rw [hv, hopened.shot]
        exact DevStatus.noConfusion
      · rw [hopened.others v hv]
        exact hinline v
    have hsealed : (t.shot (redevelopJob s w (newSet o d)).window).state ≠ .capturing := by
      rw [show (redevelopJob s w (newSet o d)).window = w from rfl, hopened.shot, show (reopened (s.shot w) _ _).state = _ from hs]
      exact ShotState.noConfusion
    rw [engineChoose_job (by rw [hopened.engine]; exact hidle) hstays hjob hsealed] at hanew
    have hbegun := (beginReplay_begun [] hprofile).since hopened.maps hopened.reads hopened.held
    have hshots := beginReplay_shots [] hprofile
    generalize beginReplay t (redevelopJob s w (newSet o d)) [] = u at hanew hbegun hshots
    have hother (v : Fin 64) : (u.owingSince s).shot v = (t.setShot w { t.shot w with dev := .replaying }).shot v :=
      (owing_field u s fun u => u.shot v).trans (congrArg (·.get v) hshots)
    have hshot : (u.owingSince s).shot w = { t.shot w with dev := .replaying } :=
      (hother w).trans (State.shot_setShot_same _ _ _)
    refine ⟨u.owingSince s, runOrder_done hd ((hquiet hdone htether).trans hanew), ?_, ?_, ?_,
      hbegun.shown (owing_field u s State.engine) (owing_field u s fun u => u.shot _) rfl,
      fun v hv => ?_⟩
    · rw [hshot, hopened.shot]
      rfl
    · rw [hshot, hopened.shot]
      rfl
    · rw [hshot, hopened.shot]
      rfl
    · rw [hother, State.shot_setShot_other _ _ _ _ hv, hopened.others v hv]
end

section
/-! PROOFS. DISCARD, and how the Development Engine stops its work on a DISCARDING shot. Settles O40. -/

namespace Sys2Proof.Machine

set_option Elab.async false

/-! ### What the engine's choice leaves as it is (R127) -/

/-- R127: the engine stays, begins an inline job, or takes the head job of a shot with a profile. -/
theorem engineChoose_cases (s : State) :
    engineChoose s = s ∨ (∃ v, engineChoose s = beginInline s v) ∨
    ∃ j rest p, s.engine.queue = j :: rest ∧ (s.shot j.window).profile = some p ∧ engineChoose s = beginReplay s j rest := by
  unfold engineChoose
  split
  · split
    · exact .inr (.inl ⟨_, rfl⟩)
    · split
      · exact .inl rfl
      · next j rest hq =>
        split
        · exact .inl rfl
        · cases hp : (s.shot j.window).profile with
          | none => exact .inl (by simp only [beginReplay, hp])
          | some p => exact .inr (.inr ⟨j, rest, p, hq, hp, rfl⟩)
  · exact .inl rfl

theorem beginInline_reported (s : State) (w : Fin 64) :
    Reported (s.setEngine { s.engine with activity := .inline w, run := freshRun }) (beginInline s w) := publish_reported _ 5

/-- What the engine's choice does not touch. -/
theorem engineChoose_field {α : Type} (s : State) (g : State → α)
    (hg : ∀ (u : State) (m : Memory) (q : MemoryPort) (n : NoticeUnit) (e : Engine) (t : TetherQueue) (xs : Vector Shot 64),
      g { u with mem := m, port := q, notice := n, engine := e, tether := t, shots := xs } = g u := by intros; rfl) :
    g (engineChoose s) = g s := by
  obtain h | ⟨v, h⟩ | ⟨j, rest, p, -, hp, h⟩ := engineChoose_cases s
  · rw [h]
  · rw [h, (beginInline_reported s v).field g fun u m q n => hg u m q n u.engine u.tether u.shots]
    exact hg s s.mem s.port s.notice _ s.tether s.shots
  · rw [h]
    exact beginReplay_field rest hp g hg

/-- The engine's choice changes no record but that of a shot with a profile, and there the development status alone. -/
theorem engineChoose_shot (s : State) (v : Fin 64) :
    (engineChoose s).shot v = s.shot v ∨
      (s.shot v).profile ≠ none ∧ (engineChoose s).shot v = { s.shot v with dev := .replaying } := by
  obtain h | ⟨u, h⟩ | ⟨j, rest, p, -, hp, h⟩ := engineChoose_cases s
  · exact .inl (by rw [h])
  · rw [h]
    exact .inl ((beginInline_reported s u).field fun x => x.shot v)
  · rw [h]
    have hshots : (beginReplay s j rest).shot v = (s.setShot j.window { s.shot j.window with dev := .replaying }).shot v :=
      congrArg (·.get v) (beginReplay_shots rest hp)
    by_cases hv : v = j.window
    · exact .inr (hv ▸ ⟨by simp [hp], (hv ▸ hshots).trans (State.shot_setShot_same _ _ _)⟩)
    · exact .inl (hshots.trans (State.shot_setShot_other _ _ _ _ hv))

theorem engineChoose_state (s : State) (v : Fin 64) : ((engineChoose s).shot v).state = (s.shot v).state := by
  obtain h | ⟨-, h⟩ := engineChoose_shot s v <;> rw [h]

theorem engineChoose_free {s : State} {w : Fin 64} (h : s.shot w = freeShot) : (engineChoose s).shot w = freeShot := by
  obtain h' | ⟨hp, -⟩ := engineChoose_shot s w
  · rw [h', h]
  · rw [h] at hp
    exact absurd rfl hp

theorem beginReplay_tetherQueue {s : State} {j : Job} {p : Profile} (rest : List Job) (hp : (s.shot j.window).profile = some p) :
    ∃ f : TetherEntry → TetherEntry, (∀ e, (f e).window = e.window) ∧
      (beginReplay s j rest).tether.queue = s.tether.queue.map f := by
  obtain ⟨t, hrep, ht⟩ := beginReplay_eq rest hp
  have htether : (beginReplay s j rest).tether = t.tether := by rw [ht, (requestLine_requested t _ _).field State.tether]
  refine ⟨_, fun e => ?_, (congrArg TetherQueue.queue (htether.trans (hrep.field State.tether)))⟩
  split <;> rfl

theorem tetherEntry_map {s t : State} {w : Fin 64} {f : TetherEntry → TetherEntry} (hf : ∀ e, (f e).window = e.window)
    (hq : t.tether.queue = s.tether.queue.map f) : tetherEntry t w = (tetherEntry s w).map f := by
  rw [tetherEntry, hq, List.find?_map, tetherEntry]
  congr 2
  funext e
  simp [hf]

theorem engineChoose_tetherEntry {s : State} {w : Fin 64} (h : tetherEntry s w = none) : tetherEntry (engineChoose s) w = none := by
  obtain h' | ⟨u, h'⟩ | ⟨j, rest, p, -, hp, h'⟩ := engineChoose_cases s
  · rw [h', h]
  · rw [h']
    exact ((beginInline_reported s u).field fun x => tetherEntry x w).trans h
  · rw [h']
    obtain ⟨f, hf, hq⟩ := beginReplay_tetherQueue rest hp
    rw [tetherEntry_map hf hq, h]
    rfl

theorem engineChoose_empty {s : State} (hinline : ∀ v, (s.shot v).dev ≠ .inline) (hq : s.engine.queue = []) :
    engineChoose s = s := by
  unfold engineChoose
  rw [inlineShot_none hinline, hq]
  exact ite_self s

/-! ### The capture line after a shot (R114) -/

/-- What the arbiter does not touch. -/
theorem capturingFell_field {α : Type} (s : State) (g : State → α)
    (hg : ∀ (u : State) (l : Lens), g { u with lens := l } = g u := by intros; rfl) : g (capturingFell s) = g s := by
  unfold capturingFell
  split
  · rw [arbitrate_lens]
    exact hg s _
  · rfl

/-! ### DISCARD before the engine's part (R39) -/

/-- R39 steps 1 to 4: the shot in window w is out of the tether queue, the verify contexts, the replay queue and the taps. -/
structure DiscardReady (s t : State) (w : Fin 64) : Prop where
  others : ∀ v, v ≠ w → t.shot v = s.shot v
  state : (t.shot w).state = (s.shot w).state
  dev : (t.shot w).dev = (s.shot w).dev
  timer : (s.shot w).state = .capturing → (t.shot w).timer = .stopped
  maps : t.maps = s.maps
  pool : t.pool = s.pool
  verify : verifyOf t w = none
  tether : tetherEntry t w = none
  engine : t.engine = if (s.shot w).dev = .queued then
    { s.engine with queue := s.engine.queue.filter fun j => j.window ≠ w } else s.engine
  fifo : t.taps.fifo = s.taps.fifo
  context : (s.shot w).state = .capturing → contextOf t w = none

/-- R39 steps 1 and 2: without tether entry and verify context. -/
def unqueued (s : State) (w : Fin 64) : State := freeVerify (headSet (s.setTetherQueue (withoutEntry s.tether.queue w))) w

/-- R39 step 3: the engine without the job of a QUEUED shot. -/
def engineWithout (s : State) (w : Fin 64) : Engine :=
  if (s.shot w).dev = .queued then { s.engine with queue := s.engine.queue.filter fun j => j.window ≠ w } else s.engine

@[simp] theorem unqueued_maps (s : State) (w : Fin 64) : (unqueued s w).maps = s.maps := rfl
@[simp] theorem unqueued_pool (s : State) (w : Fin 64) : (unqueued s w).pool = s.pool := rfl
@[simp] theorem unqueued_taps (s : State) (w : Fin 64) : (unqueued s w).taps = s.taps := rfl
@[simp] theorem unqueued_engine (s : State) (w : Fin 64) : (unqueued s w).engine = s.engine := rfl
@[simp] theorem unqueued_shot (s : State) (w v : Fin 64) : (unqueued s w).shot v = s.shot v := rfl

theorem removeJob_reported (s : State) (w : Fin 64) :
    Reported (s.setEngine { s.engine with queue := s.engine.queue.filter fun j => j.window ≠ w }) (removeJob s w) :=
  publish_reported _ 5

theorem discardCleared_reported (s : State) (w : Fin 64) :
    Reported ((unqueued s w).setEngine (engineWithout s w)) (discardCleared s w) := by
  have hfreed := (refreshHead_reported (s.setTetherQueue (withoutEntry s.tether.queue w))).map fun u => freeVerify u w
  simp only [discardCleared]
  generalize freeVerify (refreshHead (s.setTetherQueue (withoutEntry s.tether.queue w))) w = t at hfreed ⊢
  have hshot : t.shot w = s.shot w := hfreed.field fun u => u.shot w
  rw [hshot, engineWithout]
  split
  · exact (hfreed.map fun u => u.setEngine { u.engine with queue := u.engine.queue.filter fun j => j.window ≠ w }).trans
      (removeJob_reported t w)
  · exact hfreed

theorem withoutEntry_tetherEntry {q : List TetherEntry} {s : State} {w : Fin 64} (h : s.tether.queue = withoutEntry q w) : tetherEntry s w = none := by
  rw [tetherEntry, h, withoutEntry, List.find?_eq_none]
  intro e he
  simpa using (List.mem_filter.mp he).2

theorem unbindContext_contextOf (s : State) (w : Fin 64) : contextOf (unbindContext s w) w = none := by
  unfold contextOf unbindContext State.mapContexts
  rw [Option.join_eq_none_iff, List.find?_eq_none.mpr]
  · exact .inl rfl
  · intro c hc
    obtain ⟨c', -, rfl⟩ := by simpa using hc
    cases c' with
    | none => simp
    | some x => by_cases h : x.window = w <;> simp [Option.filter, h]

theorem discardCleared_field {α : Type} (s : State) (w : Fin 64) (g : State → α)
    (hg : ∀ (u : State) (m : Memory) (p : MemoryPort) (n : NoticeUnit),
      g { u with mem := m, port := p, notice := n } = g u := by intros; rfl) :
    g (discardCleared s w) = g ((unqueued s w).setEngine (engineWithout s w)) := (discardCleared_reported s w).field g hg

theorem discardPrepared_ready (s : State) (w : Fin 64) : DiscardReady s (discardPrepared s w) w := by
  have hmaps : (discardCleared s w).maps = s.maps := (discardCleared_field s w State.maps).trans (unqueued_maps s w)
  have hpool : (discardCleared s w).pool = s.pool := (discardCleared_field s w State.pool).trans (unqueued_pool s w)
  have hengine : (discardCleared s w).engine = engineWithout s w := discardCleared_field s w State.engine
  have hfifo : (discardCleared s w).taps.fifo = s.taps.fifo := congrArg Taps.fifo ((discardCleared_field s w State.taps).trans (unqueued_taps s w))
  have hverify : verifyOf (discardCleared s w) w = none :=
    (discardCleared_field s w fun u => verifyOf u w).trans (freeVerify_verifyOf _ w)
  have htether : tetherEntry (discardCleared s w) w = none :=
    withoutEntry_tetherEntry (discardCleared_field s w fun u => u.tether.queue)
  have hshot (v : Fin 64) : (discardCleared s w).shot v = s.shot v := congrArg (·.get v) (discardCleared_shots s w)
  unfold discardPrepared
  generalize discardCleared s w = t at *
  split
  · next hc =>
    have hw : (unbindContext (t.modShot w fun x => { x with timer := .stopped }) w).shot w = { s.shot w with timer := .stopped } := by
      rw [← hshot w]
      exact State.shot_setShot_same _ _ _
    exact ⟨fun v hv => (State.shot_setShot_other _ _ _ _ hv).trans (hshot v), by rw [hw], by rw [hw], fun _ => by rw [hw], hmaps, hpool,
      hverify, htether, hengine, hfifo, fun _ => unbindContext_contextOf _ w⟩
  · next hc =>
    exact ⟨fun v _ => hshot v, by rw [hshot], by rw [hshot], fun h => absurd h hc, hmaps, hpool, hverify, htether, hengine,
      hfifo, fun h => absurd h hc⟩

/-! ### DISCARD with the engine's part (R39 step 5, R130, R135) -/

theorem discardNow_releases {s : State} {w : Fin 64} (hi : (s.shot w).dev ≠ .inline) (hr : (s.shot w).dev ≠ .replaying) :
    discardNow s w = releaseShot s w .discarded := by
  unfold discardNow
  split
  · next h => exact absurd h hi
  · next h => exact absurd h hr
  · rfl

/-- R39: the shot's state is DISCARDING, apart from reports. -/
theorem discarding_reported (s : State) (w : Fin 64) :
    Reported (s.setShot w { s.shot w with state := .discarding }) (mirror (s.modShot w fun x => { x with state := .discarding }) w [0]) :=
  mirror_reported _ _ _

/-- R40: the engine is asked to stop its work on the DISCARDING shot in window w. -/
theorem discardNow_asks {s : State} {w : Fin 64}
    (h : ((s.shot w).dev = .inline ∧ s.engine.activity = .inline w) ∨ (s.shot w).dev = .replaying) :
    Reported ((s.setShot w { s.shot w with state := .discarding }).setEngine { s.engine with stop := some w }) (discardNow s w) := by
  have hmarked := discarding_reported s w
  have hasked := hmarked.map fun u => u.setEngine { u.engine with stop := some w }
  unfold discardNow
  obtain ⟨h, ha⟩ | h := h
  · rw [h]
    refine (if_pos ?_ : _ = _) ▸ hasked
    exact (hmarked.field fun u => u.engine.activity).trans ha
  · rw [h]
    exact hasked

/-- R130: an inline job that has not begun is abandoned. -/
def inlineWithdrawn (s : State) (w : Fin 64) : State :=
  { s with
    taps := { s.taps with fifo := s.taps.fifo.filter fun e => e.window ≠ w }
    engine := { s.engine with suspend := false } }

theorem abandonInline_waiting {s : State} {w : Fin 64} (h : s.engine.activity ≠ .inline w) :
    abandonInline s w = inlineWithdrawn s w := if_neg h

theorem discardNow_withdraws {s : State} {w : Fin 64} (hi : (s.shot w).dev = .inline) (ha : s.engine.activity ≠ .inline w) :
    ∃ t, Reported (inlineWithdrawn (s.setShot w { s.shot w with state := .discarding }) w) t ∧
      discardNow s w = releaseShot t w .discarded := by
  have hmarked := discarding_reported s w
  refine ⟨_, hmarked.map fun u => inlineWithdrawn u w, ?_⟩
  unfold discardNow
  rw [hi, ← abandonInline_waiting (by rw [hmarked.field State.engine]; exact ha)]
  exact if_neg (by rw [hmarked.field State.engine]; exact ha)

theorem discardShot_field {α : Type} (s : State) (w : Fin 64) (g : State → α)
    (hg : ∀ (u : State) (l : Lens), g { u with lens := l } = g u := by intros; rfl) :
    g (discardShot s w) = g (engineChoose (discardNow (discardPrepared s w) w)) := by
  rw [discardShot_eq]
  split
  · exact capturingFell_field _ g hg
  · rfl

theorem discardOrder_named {s : State} {o : OrderRecord} {w : Fin 64} (hn : Names s o w) (img : List Byte)
    (h : (s.shot w).state ≠ .discarding) : discardOrder o img s = (discardShot s w, .done) := by
  rw [discardOrder, forShot_named hn]
  exact if_neg h

theorem discardOrder_discarding {s : State} {o : OrderRecord} {w : Fin 64} (hn : Names s o w) (img : List Byte)
    (h : (s.shot w).state = .discarding) : discardOrder o img s = (s, .done) := by
  rw [discardOrder, forShot_named hn]
  exact if_pos h

/-- A release frees the shot of a state in which the earlier steps have left the granules as they were. -/
theorem DiscardReady.freed {s t : State} {w : Fin 64} (h : DiscardReady s t w) : Freed s (releaseShot t w .discarded) w :=
  (releaseShot_freed t w .discarded).since h.maps (congrArg Pool.free h.pool) h.others

theorem Freed.shown {s t u : State} {w : Fin 64} (h : Freed s t w) (shots : u.shots = t.shots) (maps : u.maps = t.maps)
    (free : u.pool.free = t.pool.free) : Freed s u w := by
  have hshot (v : Fin 64) : u.shot v = t.shot v := congrArg (·.get v) shots
  have hmaps (v : Fin 64) : u.mapsOf v = t.mapsOf v := congrArg (·.get v) maps
  exact ⟨(hshot w).trans h.shot, (hmaps w).trans h.maps, free.trans h.free, fun v hv =>
    ⟨(hshot v).trans (h.others v hv).1, (hmaps v).trans (h.others v hv).2⟩⟩

theorem hasJob_without {s : State} {w : Fin 64} (q : List Job) (h : s.engine.queue = q.filter fun j => j.window ≠ w) :
    hasJob s w = false := by
  rw [hasJob, h, List.any_eq_false]
  intro j hj
  simpa using (List.mem_filter.mp hj).2

/-! ### The engine stops (R135) -/

/-- R135: the engine is IDLE without a stop request. -/
def stopped (s : State) : State := s.setEngine { s.engine with
  suspend := false, stop := none, activity := .idle, run := freshRun, replayLine := .none }

theorem stopEngine_eq (s : State) (w : Fin 64) :
    ∃ t, Reported (stopped (releaseShot (match s.engine.activity with
      | .replay => dropReplayReads (removeJob s w)
      | _ => { s with taps := { s.taps with fifo := s.taps.fifo.filter fun e => e.window ≠ w } }) w .discarded)) t ∧
      stopEngine s w = engineChoose t :=
  ⟨_, publish_reported _ 5, rfl⟩

/-- What the end of the engine's work on a DISCARDING shot comes to, with no other work waiting. -/
structure Stopped (s u : State) (w : Fin 64) : Prop where
  freed : Freed s u w
  stop : u.engine.stop = none
  activity : u.engine.activity = .idle
  queue : u.engine.queue = []

theorem stopped_ends {s t u : State} {w : Fin 64} (hu : Reported (stopped (releaseShot t w .discarded)) u) (maps : t.maps = s.maps)
    (free : t.pool.free = s.pool.free) (others : ∀ v, v ≠ w → t.shot v = s.shot v) (hq : t.engine.queue = [])
    (hinline : ∀ v, v ≠ w → (s.shot v).dev ≠ .inline) : Stopped s (engineChoose u) w ∧ (engineChoose u).taps = t.taps := by
  have hfreed := ((releaseShot_freed t w .discarded).since maps free others).shown (u := u) (hu.field State.shots)
    (hu.field State.maps) (hu.field fun x => x.pool.free)
  have hengine : u.engine = _ := hu.field State.engine
  have hrelease : (releaseShot t w .discarded).engine = t.engine := releaseShot_field t w .discarded State.engine
  have hqueue : u.engine.queue = [] := by
    rw [hengine]
    exact (congrArg Engine.queue hrelease).trans hq
  have htaps : u.taps = t.taps := (hu.field State.taps).trans (releaseShot_field t w .discarded State.taps)
  have hstays (v : Fin 64) : (u.shot v).dev ≠ .inline := by
    by_cases hv : v = w
    · rw [hv, hfreed.shot]
      exact DevStatus.noConfusion
    · rw [(hfreed.others v hv).1]
      exact hinline v hv
  rw [engineChoose_empty hstays hqueue]
  exact ⟨⟨hfreed, by rw [hengine]; rfl, by rw [hengine]; rfl, hqueue⟩, htaps⟩

theorem stopEngine_inline {s : State} {w : Fin 64} (ha : s.engine.activity = .inline w) (hq : s.engine.queue = [])
    (hinline : ∀ v, v ≠ w → (s.shot v).dev ≠ .inline) : Stopped s (stopEngine s w) w ∧
      (stopEngine s w).taps.fifo = s.taps.fifo.filter fun e => e.window ≠ w := by
  obtain ⟨u, hu, he⟩ := stopEngine_eq s w
  rw [ha] at hu
  obtain ⟨h, htaps⟩ := stopped_ends (s := s) hu rfl rfl (fun _ _ => rfl) hq hinline
  rw [he]
  exact ⟨h, congrArg Taps.fifo htaps⟩

theorem stopEngine_replay {s : State} {w : Fin 64} (ha : s.engine.activity = .replay)
    (hq : s.engine.queue.filter (fun j => j.window ≠ w) = []) (hinline : ∀ v, v ≠ w → (s.shot v).dev ≠ .inline) :
    Stopped s (stopEngine s w) w := by
  obtain ⟨u, hu, he⟩ := stopEngine_eq s w
  rw [ha] at hu
  have hremoved := removeJob_reported s w
  obtain ⟨h, -⟩ := stopped_ends (s := s) hu (hremoved.field State.maps) (hremoved.field fun x => x.pool.free)
    (fun v _ => hremoved.field fun x => x.shot v) ((hremoved.field fun x => x.engine.queue).trans hq) hinline
  rw [he]
  exact h

/-! ### What DISCARD comes to -/

/-- What DISCARD leaves of a shot that it releases. -/
structure DiscardGone (u : State) (w : Fin 64) : Prop where
  verify : verifyOf u w = none
  tether : tetherEntry u w = none

theorem DiscardReady.gone {s t : State} {w : Fin 64} (h : DiscardReady s t w) : DiscardGone (releaseShot t w .discarded) w :=
  ⟨(releaseShot_field t w .discarded fun u => verifyOf u w).trans h.verify,
    (releaseShot_field t w .discarded fun u => tetherEntry u w).trans h.tether⟩

theorem discardNow_prepared {s : State} {w : Fin 64} (hi : (s.shot w).dev ≠ .inline) (hr : (s.shot w).dev ≠ .replaying) :
    discardNow (discardPrepared s w) w = releaseShot (discardPrepared s w) w .discarded := by
  have h := discardPrepared_ready s w
  exact discardNow_releases (by rw [h.dev]; exact hi) (by rw [h.dev]; exact hr)

/-- R39, R127: with other work to begin, a release of a shot without a job still leaves every other window's state and maps. -/
theorem discardShot_quiet {s : State} {w : Fin 64} (hi : (s.shot w).dev ≠ .inline) (hr : (s.shot w).dev ≠ .replaying) :
    ((discardShot s w).shot w = freeShot ∧ (discardShot s w).mapsOf w = emptyMaps ∧
      (discardShot s w).pool.free = s.pool.free ++ mappedGranules (s.mapsOf w)) ∧ DiscardGone (discardShot s w) w ∧
      ∀ v, v ≠ w → ((discardShot s w).shot v).state = (s.shot v).state ∧ (discardShot s w).mapsOf v = s.mapsOf v := by
  have hready := discardPrepared_ready s w
  have hfreed := hready.freed
  have hgone := hready.gone
  have hfield (v : Fin 64) : (discardShot s w).shot v = (engineChoose (discardNow (discardPrepared s w) w)).shot v :=
    discardShot_field s w fun u => u.shot v
  have hmaps (v : Fin 64) : (discardShot s w).mapsOf v = _ :=
    (discardShot_field s w fun u => u.mapsOf v).trans (engineChoose_field _ fun u => u.mapsOf v)
  have hpool : (discardShot s w).pool.free = _ :=
    (discardShot_field s w fun u => u.pool.free).trans (engineChoose_field _ fun u => u.pool.free)
  have hverify : verifyOf (discardShot s w) w = _ :=
    (discardShot_field s w fun u => verifyOf u w).trans (engineChoose_field _ fun u => verifyOf u w)
  have htether : tetherEntry (discardShot s w) w = _ := discardShot_field s w fun u => tetherEntry u w
  rw [discardNow_prepared hi hr] at hpool hverify htether
  simp only [discardNow_prepared hi hr] at hfield hmaps
  generalize releaseShot (discardPrepared s w) w .discarded = r at hfreed hgone hpool hverify htether hfield hmaps
  refine ⟨⟨?_, ?_, ?_⟩, ⟨?_, ?_⟩, fun v hv => ⟨?_, ?_⟩⟩
  · rw [hfield, engineChoose_free hfreed.shot]
  · rw [hmaps, hfreed.maps]
  · rw [hpool, hfreed.free]
  · rw [hverify, hgone.verify]
  · rw [htether, engineChoose_tetherEntry hgone.tether]
  · rw [hfield, engineChoose_state, (hfreed.others v hv).1]
  · rw [hmaps, (hfreed.others v hv).2]

/-- A busy engine makes no choice, so that behind DISCARD only the arbiter still acts. -/
theorem discardShot_busy_eq {s r : State} {w : Fin 64} (hr : discardNow (discardPrepared s w) w = r)
    (ha : r.engine.activity ≠ .idle) : ∃ l, discardShot s w = { r with lens := l } := by
  rw [discardShot_eq, hr, engineChoose_busy ha]
  split
  · unfold capturingFell
    split
    · exact ⟨_, arbitrate_lens r⟩
    · exact ⟨r.lens, rfl⟩
  · exact ⟨r.lens, rfl⟩

theorem engineWithout_activity (s : State) (w : Fin 64) : (engineWithout s w).activity = s.engine.activity := by
  unfold engineWithout
  split <;> rfl

theorem discardShot_busy {s : State} {w : Fin 64} (hi : (s.shot w).dev ≠ .inline) (hr : (s.shot w).dev ≠ .replaying)
    (ha : s.engine.activity ≠ .idle) : Freed s (discardShot s w) w ∧ DiscardGone (discardShot s w) w ∧
      ((s.shot w).dev = .queued → hasJob (discardShot s w) w = false) ∧
      ((s.shot w).state = .capturing → contextOf (discardShot s w) w = none) := by
  have hready := discardPrepared_ready s w
  have hfreed := hready.freed
  have hgone := hready.gone
  have hengine : (releaseShot (discardPrepared s w) w .discarded).engine = engineWithout s w :=
    (releaseShot_field _ w .discarded State.engine).trans hready.engine
  have hcontext : contextOf (releaseShot (discardPrepared s w) w .discarded) w = contextOf (discardPrepared s w) w :=
    releaseShot_field _ w .discarded fun u => contextOf u w
  obtain ⟨l, he⟩ := discardShot_busy_eq (discardNow_prepared hi hr) (by rw [hengine, engineWithout_activity]; exact ha)
  generalize releaseShot (discardPrepared s w) w .discarded = r at hfreed hgone hengine hcontext he
  rw [he]
  refine ⟨hfreed.shown rfl rfl rfl, ⟨hgone.verify, hgone.tether⟩, fun hq => ?_, fun hc => hcontext.trans (hready.context hc)⟩
  refine hasJob_without s.engine.queue (hengine ▸ ?_)
  rw [engineWithout, if_pos hq]

theorem discardPrepared_engine {s : State} {w : Fin 64} (h : (s.shot w).dev ≠ .queued) : (discardPrepared s w).engine = s.engine := by
  rw [(discardPrepared_ready s w).engine, if_neg h]

/-- R130: an INLINE shot whose job the engine, replaying, has not begun. -/
theorem discardShot_waiting {s : State} {w : Fin 64} (hi : (s.shot w).dev = .inline) (ha : s.engine.activity = .replay) :
    Freed s (discardShot s w) w ∧ DiscardGone (discardShot s w) w ∧ (discardShot s w).engine.suspend = false ∧
      (discardShot s w).engine.queue = s.engine.queue ∧
      (discardShot s w).taps.fifo = s.taps.fifo.filter (fun e => e.window ≠ w) ∧
      ((s.shot w).state = .capturing → contextOf (discardShot s w) w = none) := by
  have hready := discardPrepared_ready s w
  have hengine := discardPrepared_engine (s := s) (w := w) (by rw [hi]; decide)
  obtain ⟨t, hrep, hnow⟩ := discardNow_withdraws (s := discardPrepared s w) (w := w) (by rw [hready.dev]; exact hi)
    (by rw [hengine, ha]; exact Activity.noConfusion)
  have htengine : t.engine = { s.engine with suspend := false } := by rw [← hengine]; exact hrep.field State.engine
  have hrengine : (releaseShot t w .discarded).engine = _ := (releaseShot_field t w .discarded State.engine).trans htengine
  obtain ⟨l, he⟩ := discardShot_busy_eq hnow (by rw [hrengine]; exact (congrArg (· ≠ Activity.idle) ha).mpr Activity.noConfusion)
  have htaps : (releaseShot t w .discarded).taps = _ := (releaseShot_field t w .discarded State.taps).trans (hrep.field State.taps)
  have hverify : verifyOf (releaseShot t w .discarded) w = _ :=
    (releaseShot_field t w .discarded fun u => verifyOf u w).trans (hrep.field fun u => verifyOf u w)
  have htether : tetherEntry (releaseShot t w .discarded) w = _ :=
    (releaseShot_field t w .discarded fun u => tetherEntry u w).trans (hrep.field fun u => tetherEntry u w)
  have hcontext : contextOf (releaseShot t w .discarded) w = _ :=
    (releaseShot_field t w .discarded fun u => contextOf u w).trans (hrep.field fun u => contextOf u w)
  have hfreed := (releaseShot_freed t w .discarded).since (s := s) ((hrep.field State.maps).trans hready.maps)
    ((hrep.field fun u => u.pool.free).trans (congrArg Pool.free hready.pool))
    fun v hv => ((hrep.field fun u => u.shot v).trans (State.shot_setShot_other _ _ _ _ hv)).trans (hready.others v hv)
  generalize releaseShot t w .discarded = r at hrengine he htaps hverify htether hcontext hfreed
  rw [he]
  refine ⟨hfreed.shown rfl rfl rfl, ⟨hverify.trans hready.verify, htether.trans hready.tether⟩, ?_, ?_, ?_,
    fun hc => hcontext.trans (hready.context hc)⟩
  · exact congrArg Engine.suspend hrengine
  · have hq := congrArg Engine.queue hrengine
    exact hq
  · rw [← hready.fifo]
    exact congrArg Taps.fifo htaps

/-- R40: a shot that the engine works on. -/
theorem discardShot_asks {s : State} {w : Fin 64}
    (h : ((s.shot w).dev = .inline ∧ s.engine.activity = .inline w) ∨ (s.shot w).dev = .replaying ∧ s.engine.activity = .replay) :
    ((discardShot s w).shot w).state = .discarding ∧ (discardShot s w).engine.stop = some w ∧ (discardShot s w).maps = s.maps ∧
      (discardShot s w).pool = s.pool ∧ (discardShot s w).taps.fifo = s.taps.fifo ∧
      (∀ v, v ≠ w → (discardShot s w).shot v = s.shot v) ∧
      ((s.shot w).state = .capturing → contextOf (discardShot s w) w = none ∧ ((discardShot s w).shot w).timer = .stopped) := by
  have hready := discardPrepared_ready s w
  have hnotQueued : (s.shot w).dev ≠ .queued := by
    obtain ⟨h, -⟩ | ⟨h, -⟩ := h <;> rw [h] <;> decide
  have hengine := discardPrepared_engine hnotQueued
  have hbusy : s.engine.activity ≠ .idle := by
    obtain ⟨-, h⟩ | ⟨-, h⟩ := h <;> rw [h] <;> exact Activity.noConfusion
  have hrep := discardNow_asks (s := discardPrepared s w) (w := w) (by
    rw [hready.dev, hengine]
    exact h.imp id And.left)
  generalize hd : discardPrepared s w = d at hready hengine hrep
  have hnow : (discardNow d w).engine = _ := hrep.field State.engine
  obtain ⟨l, he⟩ := discardShot_busy_eq (s := s) (w := w) (congrArg (discardNow · w) hd) (by
    rw [hnow, hengine]
    exact hbusy)
  have hshot (v : Fin 64) : (discardNow d w).shot v = (d.setShot w { d.shot w with state := .discarding }).shot v :=
    hrep.field fun u => u.shot v
  have hmaps : (discardNow d w).maps = d.maps := hrep.field State.maps
  have hpool : (discardNow d w).pool = d.pool := hrep.field State.pool
  have hfifo : (discardNow d w).taps.fifo = d.taps.fifo := hrep.field fun u => u.taps.fifo
  have hcontext : contextOf (discardNow d w) w = contextOf d w := hrep.field fun u => contextOf u w
  generalize discardNow d w = r at he hnow hshot hmaps hpool hfifo hcontext
  have hw : r.shot w = { d.shot w with state := .discarding } := (hshot w).trans (State.shot_setShot_same _ _ _)
  rw [he]
  refine ⟨congrArg Shot.state hw, congrArg Engine.stop hnow, hmaps.trans hready.maps, hpool.trans hready.pool, hfifo.trans hready.fifo,
    fun v hv => ?_, fun hc => ⟨hcontext.trans (hready.context hc), (congrArg Shot.timer hw).trans (hready.timer hc)⟩⟩
  exact ((hshot v).trans (State.shot_setShot_other _ _ _ _ hv)).trans (hready.others v hv)

/-! ### A line in use (R129, R132, R135) -/

theorem developLine_part {s : State} {w : Fin 64} {p : Profile} {d : DevSet} {l : Nat} (data : List Byte)
    (h : (l + 1) % (2 * d.scale * linesPerRow p.width) ≠ 0) : developLine s w p d l data =
      some (s.setEngine { s.engine with run := { s.engine.run with acc := s.engine.run.acc ++ data } }) := if_neg h

theorem finishLine_goes {s : State} (h : previewWaits s = false) : finishLine s = afterLine s := if_neg (by rw [h]; decide)

theorem afterLine_inline {s : State} {w : Fin 64} {p : Profile} (ha : s.engine.activity = .inline w) (hp : (s.shot w).profile = some p) :
    afterLine s = if s.engine.stop = some w then stopEngine s w
      else if s.engine.run.nextLine = p.lines then endInline s w else s := by
  simp only [afterLine, ha, hp]

theorem afterLine_replay {s : State} {j : Job} {rest : List Job} {p : Profile} (ha : s.engine.activity = .replay)
    (hq : s.engine.queue = j :: rest) (hp : (s.shot j.window).profile = some p) :
    afterLine s = if s.engine.stop = some j.window then stopEngine s j.window
      else if s.engine.run.nextLine = p.lines then endReplay s j
      else if boundaryAt p j s.engine.run.nextLine then
        if s.engine.suspend then suspendReplay s j rest (s.engine.run.nextLine / linesPerRow p.width)
        else requestLine (s.setEngine { s.engine with
          queue := { j with nextRow := s.engine.run.nextLine / linesPerRow p.width } :: rest }) j.window s.engine.run.nextLine
      else requestLine s j.window s.engine.run.nextLine := by
  simp only [afterLine, ha, hq, hp]

/-- R129: the head of the tap FIFO is the line in use. -/
def entryTaken (s : State) (e : FifoEntry) (rest : List FifoEntry) : State :=
  { s with
    taps := { s.taps with fifo := rest }
    engine := { s.engine with run := { s.engine.run with nextLine := e.line + 1 } } }

section
variable {s : State} {w : Fin 64} (ha : s.engine.activity = .inline w) (hw : s.engine.run.rowWaits = false)
include ha hw

theorem exec_inlineLineConsumed_none (hf : s.taps.fifo = []) (hs : s.engine.stop = some w) :
    exec .inlineLineConsumed s = .next (stopEngine s w) := by
  have he : exec .inlineLineConsumed s = execInlineLineConsumed s := rfl
  rw [he, execInlineLineConsumed]
  simp only [ha, hw, hf, hs, if_true]
  exact if_neg Bool.false_ne_true

theorem exec_inlineLineConsumed_entry {e : FifoEntry} {rest : List FifoEntry} {p : Profile} {d : DevSet} {t : State}
    (hf : s.taps.fifo = e :: rest) (hp : (s.shot w).profile = some p) (hd : (s.shot w).devSet = some d)
    (ht : developLine (entryTaken s e rest) w p d e.line e.data = some t) :
    exec .inlineLineConsumed s = .next (finishLine t) := by
  have he : exec .inlineLineConsumed s = execInlineLineConsumed s := rfl
  have hc : consumeEntry s w e rest = some (finishLine t) := by
    have hshot : ((entryTaken s e rest).shot w) = s.shot w := rfl
    have h : consumeEntry s w e rest = match ((entryTaken s e rest).shot w).profile, ((entryTaken s e rest).shot w).devSet with
      | some p, some d => (developLine (entryTaken s e rest) w p d e.line e.data).map finishLine
      | _, _ => some (entryTaken s e rest) := rfl
    rw [h, hshot, hp, hd]
    simp only [ht, Option.map_some]
  rw [he, execInlineLineConsumed]
  simp only [ha, hw, hf, hc]
  exact if_neg Bool.false_ne_true

end

/-- R132: the running replay job has the line it uses. -/
def lineTaken (s : State) (data : List Byte) : State := s.setEngine { s.engine with
  replayLine := .none
  run := { s.engine.run with nextLine := s.engine.run.nextLine + 1, crc := s.engine.run.crc.map fun r => crcBytes r data } }

/-- The state from which a returned line has been taken is the one before, but for the read. -/
theorem returnedLine_blocks {s t : State} {data : List Byte} (h : returnedLine s = some (data, t)) :
    ∃ q, t = { s with port := { s.port with readFlight := q } } := by
  unfold returnedLine at h
  split at h
  · exact absurd h (by simp)
  · exact ⟨s.port.readFlight, (congrArg Prod.snd (Option.some.inj h)).symm⟩
  · obtain ⟨r, -, hr⟩ := Option.map_eq_some_iff.mp h
    exact ⟨_, (congrArg Prod.snd hr).symm⟩

section
variable {s t u : State} {j : Job} {rest : List Job} {p : Profile} {data : List Byte} (ha : s.engine.activity = .replay)
  (hq : s.engine.queue = j :: rest) (hw : s.engine.run.rowWaits = false) (hr : returnedLine s = some (data, t))
include ha hq hw hr

theorem exec_replayLineReturned (hu : useReplayLine t j data = some u) : exec .replayLineReturned s = .next u := by
  have he : exec .replayLineReturned s = execReplayLineReturned s := rfl
  rw [he, execReplayLineReturned]
  simp only [ha, hq, hw, hr, hu]
  exact if_neg Bool.false_ne_true

end

theorem replayStill_none {s : State} (w : Fin 64) (p : Profile) (l : Nat) (data : List Byte) (h : s.engine.run.still = none) :
    replayStill s w p l data = s := by
  simp only [replayStill, h]

theorem useReplayLine_check {s : State} {j : Job} {p : Profile} (data : List Byte) (hp : (s.shot j.window).profile = some p)
    (hs : s.engine.run.still = none) (hk : j.kind = .check) : useReplayLine s j data = some (finishLine (lineTaken s data)) := by
  simp only [useReplayLine, hp, hk]
  exact congrArg (fun u => some (finishLine u)) (replayStill_none (s := lineTaken s data) _ _ _ _ hs)

theorem useReplayLine_develop {s : State} {j : Job} {p : Profile} {d : DevSet} (data : List Byte)
    (hp : (s.shot j.window).profile = some p) (hs : s.engine.run.still = none) (hk : j.kind = .develop) (hd : j.set = some d) :
    useReplayLine s j data = (developLine (lineTaken s data) j.window p d s.engine.run.nextLine data).map finishLine := by
  simp only [useReplayLine, hp, hk, hd]
  exact congrArg (fun u => (developLine u j.window p d s.engine.run.nextLine data).map finishLine)
    (replayStill_none (s := lineTaken s data) _ _ _ _ hs)

end Sys2Proof.Machine

open Sys2Proof Sys2Proof.Machine

/-- What the order's completion leaves of a DISCARD that goes through. -/
theorem exec_discard {s : State} {o : OrderRecord} {img : List Byte} {w : Fin 64}
    (hd : dispatchedOrder s .discard = some (o, img)) (hn : Names s o w) (h : (s.shot w).state ≠ .discarding) :
    exec .discard s = .next (finishOrder ((discardShot s w).owingSince s) o .done) :=
  runOrder_done hd (discardOrder_named hn img h)

/-- Settles O40: what DISCARD does to the shot's record, entries and work for each development status, and what the engine does at the
next line when it is asked to stop. -/
theorem discardReleasesShot : Obligations.DiscardReleasesShot := by
  refine fun s w => ⟨fun o img hd hn => ⟨fun hs hdev => ?_, fun hs ha hdev => ?_, fun hs hi => ⟨fun ha => ?_, fun ha => ?_⟩,
    fun hs hr ha => ?_, fun hs => runOrder_unchanged hd (discardOrder_discarding hn img hs)⟩,
    fun hstop hwaits hpreview hinline => ⟨fun ha hq => ⟨fun hf => ?_, fun e rest p d hf hp hdev hpart => ?_⟩,
      fun j p data t ha hq hj hk hp hstill hret => ?_⟩⟩
  · obtain ⟨⟨hshot, hmaps, hfree⟩, hgone, hothers⟩ := discardShot_quiet (s := s) (w := w)
      (by obtain h | h | h := hdev <;> rw [h] <;> decide) (by obtain h | h | h := hdev <;> rw [h] <;> decide)
    exact ⟨_, exec_discard hd hn (by rw [hs]; decide), hshot, hmaps, hfree, hgone.verify, hgone.tether, hothers⟩
  · obtain ⟨hfreed, hgone, hjob, hcontext⟩ := discardShot_busy (s := s) (w := w)
      (by obtain h | h | h | h := hdev <;> rw [h] <;> decide) (by obtain h | h | h | h := hdev <;> rw [h] <;> decide) ha
    exact ⟨_, exec_discard hd hn (by obtain h | h := hs <;> rw [h] <;> decide), hfreed.owing s, hgone.verify, hgone.tether, hjob, hcontext⟩
  · obtain ⟨hfreed, hgone, hsuspend, hqueue, hfifo, hcontext⟩ := discardShot_waiting hi ha
    exact ⟨_, exec_discard hd hn (by obtain h | h := hs <;> rw [h] <;> decide), hfreed.owing s, hgone.verify, hgone.tether, hsuspend,
      hqueue, hfifo, hcontext⟩
  · exact ⟨_, exec_discard hd hn (by obtain h | h := hs <;> rw [h] <;> decide), discardShot_asks (.inl ⟨hi, ha⟩)⟩
  · obtain ⟨hstate, hasked, hmaps, hpool, -, hothers, -⟩ := discardShot_asks (.inr ⟨hr, ha⟩)
    exact ⟨_, exec_discard hd hn (by rw [hs]; decide), hstate, hasked, hmaps, hpool, hothers⟩
  · obtain ⟨h, -⟩ := stopEngine_inline ha hq hinline
    exact ⟨_, exec_inlineLineConsumed_none ha hwaits hf hstop, h.freed, h.stop, h.activity⟩
  · have hline := exec_inlineLineConsumed_entry ha hwaits hf hp hdev (developLine_part e.data hpart)
    generalize hu : (entryTaken s e rest).setEngine _ = u at hline
    obtain ⟨h, hfifo⟩ := stopEngine_inline (s := u) (w := w) (hu ▸ ha) (hu ▸ hq) (hu ▸ hinline)
    rw [finishLine_goes (by rw [← hu]; exact hpreview), afterLine_inline (s := u) (w := w) (p := p) (by rw [← hu]; exact ha)
      (by rw [← hu]; exact hp), if_pos (by rw [← hu]; exact hstop)] at hline
    have hfreed := h.freed.since (s := s) (by rw [← hu]; rfl) (by rw [← hu]; rfl) (fun v _ => by rw [← hu]; rfl)
    exact ⟨_, hline, hfreed, h.stop, h.activity, hfifo.trans (by rw [← hu]; rfl)⟩
  · obtain ⟨q, ht⟩ := returnedLine_blocks hret
    obtain rfl := hj
    have hline := exec_replayLineReturned ha hq hwaits hret
      (useReplayLine_check data (by rw [ht]; exact hp) (by rw [ht]; exact hstill) hk)
    generalize hu : lineTaken t data = u at hline
    have hblocks : u = { s with port := u.port, engine := u.engine } := by rw [← hu, ht]; rfl
    have hengine : u.engine = (lineTaken s data).engine := by rw [← hu, ht]; rfl
    have hqueue : u.engine.queue = [j] := (congrArg Engine.queue hengine).trans hq
    have hpw : previewWaits u = false := by rw [← hu, ht]; exact hpreview
    have h := stopEngine_replay (s := u) (w := j.window) ((congrArg Engine.activity hengine).trans ha) (by simp [hqueue])
      (by rw [hblocks]; exact hinline)
    rw [finishLine_goes hpw, afterLine_replay (s := u) (p := p) ((congrArg Engine.activity hengine).trans ha) hqueue
      (by rw [hblocks]; exact hp), if_pos ((congrArg Engine.stop hengine).trans hstop)] at hline
    have hfreed := h.freed.since (s := s) (by rw [hblocks]) (by rw [hblocks]) (fun v _ => by rw [hblocks]; rfl)
    exact ⟨_, hline, hfreed, h.stop, h.activity, h.queue⟩
end

section
/-! PROOFS. Preview rows of the Development Engine: how their lines are written, and how an inline job ends. Settles O53. -/

namespace Sys2Proof.Machine

set_option Elab.async false

/-! ### A granule is mapped (R6) -/

section
variable {s u : State} {w : Fin 64} {n r : Nat} {rest : List Nat} {x : Shot} (hfree : s.pool.free = n :: rest)
  (hres : (s.shot w).reservation = r + 1) (hx : x.reservation = r) (hpool : u.pool.free = rest) (hshots : u.shots = s.shots.set w.val x)
include hfree hres hx hpool hshots

/-- R13: a granule that a reservation covers leaves what is available as it was. -/
theorem available_filled : available u = available s := by
  have hsum := totalReservation_setShot s w x
  have htotal : totalReservation u = totalReservation (s.setShot w x) := by
    rw [totalReservation, hshots]
    rfl
  have hcount : freeCount u = rest.length := congrArg List.length hpool
  have hbefore : freeCount s = rest.length + 1 := congrArg List.length hfree
  unfold available
  omega

/-- R6, R13: so only cursor page line 2 follows it, with its free count. -/
theorem poolChanged_filled (ls : List (Fin 64)) : poolChanged s (mirror u w ls) = publish (mirror u w ls) 2 := by
  have hrep := mirror_reported u w ls
  have ha : available (mirror u w ls) = available s :=
    (hrep.field available).trans (available_filled hfree hres hx hpool hshots)
  have hcount : freeCount (mirror u w ls) = rest.length := (hrep.field freeCount).trans (congrArg List.length hpool)
  have hbefore : freeCount s = rest.length + 1 := congrArg List.length hfree
  rw [poolChanged, if_pos ha.symm, poolCounted, if_pos ha.symm, publishPool]
  have hne : freeCount s ≠ freeCount (mirror u w ls) := by omega
  exact if_neg (by simp [hne])

end

theorem allocatePreview_eq {s : State} {w : Fin 64} {g n r : Nat} {rest : List Nat} (hg : (s.mapsOf w).preview[g]? = some none)
    (hfree : s.pool.free = n :: rest) (hres : (s.shot w).reservation = r + 1) :
    allocatePreview s w g = some (publish (mirror (previewFilled s w g n rest r) w [1]) 2) :=
  allocatePreview_eq_some.mpr ⟨n, rest, r, hg, hfree, hres, (poolChanged_filled (u := previewFilled s w g n rest r) hfree hres rfl rfl rfl [1]).symm⟩

theorem allocateRaw_eq {s : State} {w : Fin 64} {g n r : Nat} {rest : List Nat} (hg : (s.mapsOf w).raw[g]? = some none)
    (hfree : s.pool.free = n :: rest) (hres : (s.shot w).reservation = r + 1) :
    allocateRaw s w g = some (publish (mirror (rawFilled s w g n rest r) w [1]) 2) :=
  allocateRaw_eq_some.mpr ⟨n, rest, r, hg, hfree, hres, (poolChanged_filled (u := rawFilled s w g n rest r) hfree hres rfl rfl rfl [1]).symm⟩

/-! ### Preview lines (R7, R125) -/

/-- The preview line that goes to the mapped place of an offset. -/
def previewLine (s : State) (w : Fin 64) (l : Nat × List Byte × BitVec 64) : OwnLine := .preview (previewAddr s w l.1) l.2.1 l.2.2

theorem emit_line_room {s : State} (l : OwnLine) (hwork : s.port.work = []) (hroom : s.port.writes.length < 32) :
    emit s (.line l) = enterWrite s (ownLineWrite s l) := by
  rw [← emitLine_room l hwork hroom, emitLine, hwork]
  rfl

theorem writePreviewLine_mapped {s : State} {w : Fin 64} {l : Nat × List Byte × BitVec 64}
    (h : (s.previewEntry w (l.1 / Config.granule)).isSome = true) (hwork : s.port.work = []) (hroom : s.port.writes.length < 32) :
    writePreviewLine s w l = some (enterWrite s (previewAddr s w l.1, l.2.1, l.2.2)) := by
  obtain ⟨n, hn⟩ := Option.isSome_iff_exists.mp h
  have haddr : previewAddr s w l.1 = n * Config.granule + l.1 % Config.granule := by rw [previewAddr, hn]; rfl
  simp only [writePreviewLine, haddr]
  rw [if_pos h, Option.map_some]
  simp only [hn]
  exact congrArg some (emit_line_room _ hwork hroom)

theorem writePreviewLines_append (s : State) (w : Fin 64) (as bs : List (Nat × List Byte × BitVec 64)) :
    writePreviewLines s w (as ++ bs) = (writePreviewLines s w as).bind fun t => writePreviewLines t w bs := by
  induction as generalizing s with
  | nil => rfl
  | cons a as ih =>
    simp only [List.cons_append, writePreviewLines, Option.bind_assoc, ih]

theorem previewAddr_congr {s t : State} (h : t.maps = s.maps) (w : Fin 64) (o : Nat) : previewAddr t w o = previewAddr s w o := by
  simp only [previewAddr, State.previewEntry, State.mapsOf, h]

theorem LinesInserted.nil (s : State) (w : Fin 64) : LinesInserted s s w [] := ⟨rfl, by simp, rfl⟩

theorem LinesInserted.cons {s t : State} {w : Fin 64} {l : Nat × List Byte × BitVec 64} {ls : List (Nat × List Byte × BitVec 64)}
    (h : LinesInserted (enterWrite s (previewAddr s w l.1, l.2.1, l.2.2)) t w ls) : LinesInserted s t w (l :: ls) := by
  have haddr : previewAddr (enterWrite s (previewAddr s w l.1, l.2.1, l.2.2)) w = previewAddr s w := funext fun _ => rfl
  obtain ⟨mem, writes, port⟩ := h
  rw [haddr] at mem writes
  have hwrites : (enterWrite s (previewAddr s w l.1, l.2.1, l.2.2)).port.writes.map (fun x => (x.addr, x.data, x.mask)) =
      s.port.writes.map (fun x => (x.addr, x.data, x.mask)) ++ [(previewAddr s w l.1, l.2.1, l.2.2)] := by
    simp only [enterWrite, List.map_append, List.map_cons, List.map_nil]
  rw [hwrites] at writes
  have hmem : (enterWrite s (previewAddr s w l.1, l.2.1, l.2.2)).mem = s.mem.writeLine (previewAddr s w l.1) l.2.1 l.2.2 := by
    simp only [enterWrite]
  rw [hmem] at mem
  have hport := congrArg (fun q : MemoryPort => { q with writes := s.port.writes, nextEntry := s.port.nextEntry }) port
  exact ⟨by rw [mem, List.foldl_cons], by rw [writes, List.map_cons, List.append_assoc, List.singleton_append], hport⟩

theorem LinesInserted.length {s t : State} {w : Fin 64} {ls : List (Nat × List Byte × BitVec 64)} (h : LinesInserted s t w ls) :
    t.port.writes.length = s.port.writes.length + ls.length := by
  simpa using congrArg List.length h.writes

theorem LinesInserted.work {s t : State} {w : Fin 64} {ls : List (Nat × List Byte × BitVec 64)} (h : LinesInserted s t w ls) :
    t.port.work = s.port.work := by
  have e := congrArg MemoryPort.work h.port
  exact e

/-- R125: the lines of a row whose granules are mapped all enter, with places for them. -/
structure RowInserted (s t : State) (w : Fin 64) (ls : List (Nat × List Byte × BitVec 64)) : Prop where
  written : writePreviewLines s w ls = some t
  inserted : LinesInserted s t w ls
  blocks : { t with mem := s.mem, port := s.port } = s
  reports : OnlyReports (ls.map (previewLine s w)) 0 s t

theorem rowInserted {s : State} {w : Fin 64} {ls : List (Nat × List Byte × BitVec 64)}
    (h : ∀ l ∈ ls, (s.previewEntry w (l.1 / Config.granule)).isSome = true) (hwork : s.port.work = [])
    (hroom : s.port.writes.length + ls.length ≤ 32) : ∃ t, RowInserted s t w ls := by
  induction ls generalizing s with
  | nil => exact ⟨s, rfl, .nil s w, rfl, .refl s⟩
  | cons l ls ih =>
    have hmapped := h l List.mem_cons_self
    rw [List.length_cons] at hroom
    have hline := writePreviewLine_mapped hmapped hwork (by omega)
    generalize he : enterWrite s (previewAddr s w l.1, l.2.1, l.2.2) = e at hline
    have hlen : e.port.writes.length = s.port.writes.length + 1 := by rw [← he]; exact List.length_append
    have hmaps : e.maps = s.maps := by rw [← he]; rfl
    obtain ⟨t, hwritten, hinserted, hblocks, hreports⟩ := ih (s := e) (fun m hm => by
      have := h m (List.mem_cons_of_mem l hm)
      rwa [State.previewEntry, State.mapsOf, hmaps]) (by rw [← he]; exact hwork) (by omega)
    refine ⟨t, ?_, (he ▸ hinserted).cons, ?_, ?_⟩
    · rw [writePreviewLines, hline]
      exact hwritten
    · have e' := congrArg (fun u : State => { u with mem := s.mem, port := s.port }) hblocks
      rw [← he] at e'
      exact e'
    · have hfirst : OnlyReports [previewLine s w l] 0 s e := he ▸ enterLine_reports s (previewLine s w l)
      have hsame : previewLine e w = previewLine s w := funext fun l => by rw [previewLine, previewAddr_congr hmaps, previewLine]
      exact hfirst.trans (hsame ▸ hreports)

theorem LinesInserted.since {r s t : State} {w : Fin 64} {ls : List (Nat × List Byte × BitVec 64)} (h : LinesInserted s t w ls)
    (maps : s.maps = r.maps) (mem : s.mem = r.mem) (port : s.port = r.port) : LinesInserted r t w ls := by
  have haddr : previewAddr s w = previewAddr r w := funext fun o => previewAddr_congr maps w o
  obtain ⟨hmem, hwrites, hport⟩ := h
  rw [haddr] at hmem hwrites
  rw [mem] at hmem
  rw [port] at hwrites hport
  exact ⟨hmem, hwrites, hport⟩

/-! ### A row with a granule to be mapped (R6, R7) -/

theorem writePreviewLines_allocates {s t : State} {w : Fin 64} {b : Nat × List Byte × BitVec 64}
    (bs : List (Nat × List Byte × BitVec 64)) (hs : s.previewEntry w (b.1 / Config.granule) = none)
    (ha : allocatePreview s w (b.1 / Config.granule) = some t) (ht : (t.previewEntry w (b.1 / Config.granule)).isSome = true) :
    writePreviewLines s w (b :: bs) = writePreviewLines t w (b :: bs) := by
  have hline : writePreviewLine s w b = writePreviewLine t w b := by
    simp only [writePreviewLine]
    rw [if_pos ht, if_neg (by rw [hs]; exact Bool.false_ne_true), ha]
  rw [writePreviewLines, writePreviewLines, hline]

/-- R6, R45, R165: the state in which preview entry g has been filled and its mirror line 1 and cursor page line 2 written. -/
def previewMapped (s : State) (w : Fin 64) (g n : Nat) (rest : List Nat) (r : Nat) : State :=
  publish (mirror (previewFilled s w g n rest r) w [1]) 2

theorem previewMapped_reports (s : State) (w : Fin 64) (g n : Nat) (rest : List Nat) (r : Nat) :
    OnlyReports [.mirror w 1, .cursor 2] 0 (previewFilled s w g n rest r) (previewMapped s w g n rest r) :=
  (mirror_reports _ w [1]).trans (publish_reports _ 2)

theorem previewMapped_writes {s : State} (w : Fin 64) (g n : Nat) (rest : List Nat) (r : Nat) (hwork : s.port.work = [])
    (hroom : s.port.writes.length + 2 ≤ 32) : (previewMapped s w g n rest r).port.work = [] ∧
      ∃ x y, (previewMapped s w g n rest r).port.writes = s.port.writes ++ [x, y] := by
  generalize hu : previewFilled s w g n rest r = u
  have hport : u.port = s.port := by rw [← hu]; rfl
  have hmirror : mirror u w [1] = enterWrite u (ownLineWrite u (.mirror w 1)) :=
    emitLine_room _ (by rw [hport, hwork]) (by rw [hport]; omega)
  generalize hv : enterWrite u (ownLineWrite u (.mirror w 1)) = v at hmirror
  have hwrites : ∃ x, v.port.writes = u.port.writes ++ [x] := ⟨_, by rw [← hv]; rfl⟩
  have hvwork : v.port.work = [] := by rw [← hv, ← hwork, ← hport]; rfl
  obtain ⟨x, hx⟩ := hwrites
  have hpublish : publish v 2 = enterWrite v (ownLineWrite v (.cursor 2)) :=
    emitLine_room _ hvwork (by rw [hx, hport, List.length_append, List.length_singleton]; omega)
  have hmapped : previewMapped s w g n rest r = enterWrite v (ownLineWrite v (.cursor 2)) := by
    rw [previewMapped, hu, hmirror, hpublish]
  rw [hmapped]
  have hlast : ∃ y, (enterWrite v (ownLineWrite v (.cursor 2))).port.writes = v.port.writes ++ [y] := ⟨_, rfl⟩
  obtain ⟨y, hy⟩ := hlast
  exact ⟨hvwork, x, y, by rw [hy, hx, hport, List.append_assoc]; rfl⟩

theorem previewFilled_entry {s : State} {w : Fin 64} {g : Nat} (n : Nat) (rest : List Nat) (r : Nat)
    (hg : (s.mapsOf w).preview[g]? = some none) (h : Nat) :
    (previewFilled s w g n rest r).previewEntry w h = if h = g then some n else s.previewEntry w h := by
  have hmaps : (previewFilled s w g n rest r).mapsOf w = { s.mapsOf w with preview := (s.mapsOf w).preview.setIfInBounds g (some n) } :=
    mapsOf_set_same s w _
  have hlt : g < 64 := by
    by_contra hge
    rw [Vector.getElem?_eq_none (by omega)] at hg
    exact absurd hg (by simp)
  rw [State.previewEntry, hmaps, Vector.getElem?_setIfInBounds, State.previewEntry]
  by_cases hh : h = g
  · rw [if_pos hh, if_pos hh.symm, if_pos (hh ▸ hlt)]
    rfl
  · rw [if_neg hh, if_neg (Ne.symm hh)]

theorem RowInserted.maps {s t : State} {w : Fin 64} {ls : List (Nat × List Byte × BitVec 64)} (h : RowInserted s t w ls) :
    t.maps = s.maps := by
  have e := congrArg State.maps h.blocks
  exact e

theorem RowInserted.triples {s t : State} {w : Fin 64} {ls : List (Nat × List Byte × BitVec 64)} (h : RowInserted s t w ls) :
    t.port.writes.map (fun x => (x.addr, x.data, x.mask)) =
      s.port.writes.map (fun x => (x.addr, x.data, x.mask)) ++ ls.map (fun l => (previewAddr s w l.1, l.2.1, l.2.2)) :=
  h.inserted.writes

/-- R6: the record of a shot for which a preview granule has been mapped. -/
def previewCounted (x : Shot) (r : Nat) : Shot := { x with reservation := r, previewMapped := x.previewMapped + 1 }

/-- R6, R7, R125: the lines of a row, one granule of which is filled from the head of the free queue, all enter. -/
structure RowAllocated (s t : State) (w : Fin 64) (g n : Nat) (rest : List Nat) (r : Nat)
    (ls : List (Nat × List Byte × BitVec 64)) : Prop where
  written : writePreviewLines s w ls = some t
  work : t.port.work = []
  reports : OnlyReports ([.mirror w 1, .cursor 2] ++ ls.map (previewLine t w)) 0 (previewFilled s w g n rest r) t
  inserted : (ls.map fun l => (previewAddr t w l.1, l.2.1, l.2.2)).Sublist
    ((t.port.writes.drop s.port.writes.length).map fun x => (x.addr, x.data, x.mask))

theorem rowAllocated {s : State} {w : Fin 64} {g n r : Nat} {rest : List Nat} {ls : List (Nat × List Byte × BitVec 64)}
    (hmapped : ∀ l ∈ ls, (s.previewEntry w (l.1 / Config.granule)).isSome = true ∨ l.1 / Config.granule = g)
    (hsome : ∃ l ∈ ls, l.1 / Config.granule = g) (hg : (s.mapsOf w).preview[g]? = some none) (hfree : s.pool.free = n :: rest)
    (hres : (s.shot w).reservation = r + 1) (hwork : s.port.work = []) (hroom : s.port.writes.length + ls.length + 2 ≤ 32) :
    ∃ t, RowAllocated s t w g n rest r ls := by
  obtain ⟨as, b, bs, rfl, hb, has⟩ : ∃ as b bs, ls = as ++ b :: bs ∧ b.1 / Config.granule = g ∧ ∀ a ∈ as, a.1 / Config.granule ≠ g := by
    obtain ⟨l, hl, hlg⟩ := hsome
    cases hfind : ls.find? fun l => l.1 / Config.granule = g with
    | none => exact absurd hlg (by simpa using List.find?_eq_none.mp hfind l hl)
    | some b =>
      obtain ⟨hb, as, bs, hls, has⟩ := List.find?_eq_some_iff_append.mp hfind
      exact ⟨as, b, bs, hls, by simpa using hb, fun a ha => by simpa using has a ha⟩
  rw [List.length_append, List.length_cons] at hroom
  obtain ⟨t, hfirst⟩ := rowInserted (s := s) (w := w) (ls := as)
    (fun a ha => (hmapped a (List.mem_append_left _ ha)).resolve_right (has a ha)) hwork (by omega)
  have hblocks {α : Type} (f : State → α) (hf : ∀ (u : State) (m : Memory) (q : MemoryPort), f { u with mem := m, port := q } = f u) :
      f t = f s := by rw [← hf t s.mem s.port, hfirst.blocks]
  have htmaps : t.mapsOf w = s.mapsOf w := hblocks (fun u => u.mapsOf w) fun _ _ _ => rfl
  have htwork : t.port.work = [] := hfirst.inserted.work.trans hwork
  have htlen := hfirst.inserted.length
  have halloc := allocatePreview_eq (s := t) (w := w) (by rw [htmaps]; exact hg) ((hblocks (fun u => u.pool.free) fun _ _ _ => rfl).trans hfree)
    ((congrArg Shot.reservation (hblocks (fun u => u.shot w) fun _ _ _ => rfl)).trans hres)
  obtain ⟨hvwork, x, y, hvwrites⟩ := previewMapped_writes (s := t) w g n rest r htwork (by omega)
  have hvmaps : (previewMapped t w g n rest r).maps = (previewFilled t w g n rest r).maps :=
    (previewMapped_reports t w g n rest r).reported.field State.maps
  have hreports := previewMapped_reports t w g n rest r
  have hventry (h : Nat) : (previewMapped t w g n rest r).previewEntry w h = if h = g then some n else s.previewEntry w h := by
    rw [State.previewEntry, State.mapsOf, hvmaps, ← State.mapsOf, ← State.previewEntry,
      previewFilled_entry n rest r (by rw [htmaps]; exact hg), State.previewEntry, htmaps, ← State.previewEntry]
  rw [← previewMapped] at halloc
  generalize previewMapped t w g n rest r = v at halloc hvwork hvwrites hreports hventry
  obtain ⟨u, hlast⟩ := rowInserted (s := v) (w := w) (ls := b :: bs) (fun l hl => by
    rw [hventry]
    split
    · rfl
    · next hne => exact (hmapped l (List.mem_append_right _ hl)).resolve_right hne) hvwork
    (by rw [hvwrites, List.length_append, htlen, List.length_cons]; simp only [List.length_cons, List.length_nil]; omega)
  have haddr (l : Nat × List Byte × BitVec 64) (hl : l.1 / Config.granule ≠ g) : previewAddr u w l.1 = previewAddr s w l.1 := by
    rw [previewAddr_congr hlast.maps, previewAddr, hventry, if_neg hl, previewAddr]
  have hsameAddr : as.map (fun l => (previewAddr s w l.1, l.2.1, l.2.2)) = as.map fun l => (previewAddr u w l.1, l.2.1, l.2.2) :=
    List.map_congr_left fun a ha => by rw [haddr a (has a ha)]
  refine ⟨u, ?_, hlast.inserted.work.trans hvwork, ?_, ?_⟩
  · rw [writePreviewLines_append, hfirst.written, Option.bind_some,
      writePreviewLines_allocates bs ?_ (hb.symm ▸ halloc) (by rw [hventry, if_pos hb]; rfl)]
    · exact hlast.written
    · rw [hb, State.previewEntry, htmaps, hg]
      rfl
  · have hbefore := hfirst.reports.map fun x => previewFilled x w g n rest r
    have hall := (hbefore.trans hreports).trans hlast.reports
    refine hall.mono (fun l hl => ?_) (Nat.le_refl 0)
    have hline (a : Nat × List Byte × BitVec 64) (ha : a ∈ as) : previewLine s w a = previewLine u w a := by
      rw [previewLine, ← haddr a (has a ha), previewLine]
    have hline' : previewLine v w = previewLine u w := funext fun l => by
      rw [previewLine, ← previewAddr_congr hlast.maps, previewLine]
    rw [hline', List.map_congr_left hline] at hl
    simp only [List.mem_append, List.map_append] at hl ⊢
    tauto
  · have hdrop : (u.port.writes.drop s.port.writes.length).map (fun x => (x.addr, x.data, x.mask)) =
        as.map (fun l => (previewAddr u w l.1, l.2.1, l.2.2)) ++ ([x, y].map (fun x => (x.addr, x.data, x.mask)) ++
          (b :: bs).map fun l => (previewAddr u w l.1, l.2.1, l.2.2)) := by
      have hv' : (b :: bs).map (fun l => (previewAddr v w l.1, l.2.1, l.2.2)) =
          (b :: bs).map fun l => (previewAddr u w l.1, l.2.1, l.2.2) :=
        List.map_congr_left fun l _ => by rw [← previewAddr_congr hlast.maps]
      rw [List.map_drop, hlast.triples, hvwrites, List.map_append, hfirst.triples, hv', hsameAddr, List.append_assoc, List.append_assoc]
      exact List.drop_left' (List.length_map _)
    rw [hdrop, List.map_append]
    exact (List.Sublist.refl _).append (List.sublist_append_right _ _)

/-! ### A row is formed (R125, R126) -/

/-- R126: the pixels of a completed row are counted, and the next row begins. -/
def rowCounted (s : State) (row : List Pixel) : State := s.setEngine { s.engine with run := { s.engine.run with
  acc := [], hist := row.foldl countPixel s.engine.run.hist, clip := row.foldl countClip s.engine.run.clip } }

theorem RowOf.since {s t : State} {p : Profile} {d : DevSet} {l : Nat} {bytes : List Byte} {row : List Pixel}
    {lines : List (Nat × List Byte × BitVec 64)} (h : RowOf s p d l bytes row lines) (tones : t.engine.tones = s.engine.tones) :
    RowOf t p d l bytes row lines :=
  ⟨h.ends, by rw [tones]; exact h.pixels, h.placed⟩

theorem developLine_row {s : State} {w : Fin 64} {p : Profile} {d : DevSet} {l : Nat} {data : List Byte} {row : List Pixel}
    {lines : List (Nat × List Byte × BitVec 64)} (h : RowOf s p d l (s.engine.run.acc ++ data) row lines) :
    developLine s w p d l data = writePreviewLines (rowCounted s row) w lines := by
  rw [h.placed, h.pixels]
  exact if_pos h.ends

theorem previewWaits_idle {s : State} (h : s.port.work = []) : previewWaits s = false := by
  rw [previewWaits, h]
  rfl

/-! ### The end of a job (R129, R136) -/

/-- The end of the work on the shot in window w: its record is x, the engine e, and nothing else has changed but what the pool's counts
and the tether head say. -/
structure JobOver (s u : State) (w : Fin 64) (x : Shot) (e : Engine) : Prop where
  shot : u.shot w = x
  others : ∀ v, v ≠ w → u.shot v = s.shot v
  maps : u.maps = s.maps
  free : u.pool.free = s.pool.free
  taps : u.taps = s.taps
  engine : u.engine = e
  reads : u.port.reads = s.port.reads
  held : u.port.heldReads = s.port.heldReads

theorem JobOver.of_reported {s b u : State} {w : Fin 64} {x : Shot} {e : Engine} (h : JobOver s b w x e) (k : Reported b u) :
    JobOver s u w x e where
  shot := (k.field fun v => v.shot w).trans h.shot
  others v hv := (k.field fun u => u.shot v).trans (h.others v hv)
  maps := (k.field State.maps).trans h.maps
  free := (k.field fun v => v.pool.free).trans h.free
  taps := (k.field State.taps).trans h.taps
  engine := (k.field State.engine).trans h.engine
  reads := (k.portField MemoryPort.reads).trans h.reads
  held := (k.portField MemoryPort.heldReads).trans h.held

theorem JobOver.recounted {s u : State} {w : Fin 64} {x : Shot} {e : Engine} (h : JobOver s u w x e) (a : Bool) (c : Option (Fin 64))
    (f : Bool) : JobOver s (recounted u a c f) w x e :=
  ⟨h.shot, h.others, h.maps, h.free, h.taps, h.engine, h.reads, h.held⟩

theorem JobOver.record {s u : State} {w : Fin 64} {x : Shot} {e : Engine} (h : JobOver s u w x e) (y : Shot) :
    JobOver s (u.setShot w y) w y e :=
  ⟨State.shot_setShot_same _ _ _, fun v hv => (State.shot_setShot_other _ _ _ _ hv).trans (h.others v hv), h.maps, h.free, h.taps,
    h.engine, h.reads, h.held⟩

theorem JobOver.readyMarked {s u : State} {w : Fin 64} {x : Shot} {e : Engine} (h : JobOver s u w x e) (v : Fin 64) :
    JobOver s (readyMarked u v) w x e :=
  ⟨h.shot, h.others, h.maps, h.free, h.taps, h.engine, h.reads, h.held⟩

theorem JobOver.setEngine {s u : State} {w : Fin 64} {x : Shot} {e : Engine} (h : JobOver s u w x e) (e' : Engine) :
    JobOver s (u.setEngine e') w x e' :=
  ⟨h.shot, h.others, h.maps, h.free, h.taps, rfl, h.reads, h.held⟩

theorem JobOver.noInline {s u : State} {w : Fin 64} {x : Shot} {e : Engine} (h : JobOver s u w x e)
    (hs : ∀ v, v ≠ w → (s.shot v).dev ≠ .inline) (hx : x.dev ≠ .inline) (v : Fin 64) : (u.shot v).dev ≠ .inline := by
  by_cases hv : v = w
  · rw [hv, h.shot]
    exact hx
  · rw [h.others v hv]
    exact hs v hv

theorem JobOver.refl (s : State) (w : Fin 64) : JobOver s s w (s.shot w) s.engine :=
  ⟨rfl, fun _ _ => rfl, rfl, rfl, rfl, rfl, rfl, rfl⟩

theorem JobOver.congr {s u : State} {w : Fin 64} {x y : Shot} {e : Engine} (h : JobOver s u w x e) (hx : x = y) :
    JobOver s u w y e := hx ▸ h

/-- R136: the record with the job's results. -/
def doneShot (x : Shot) (r : Running) : Shot :=
  { x with dev := .done, reason := none, checkOnly := false, hist := r.hist, clip := r.clip }

theorem JobOver.doneDev {s u : State} {w : Fin 64} {x : Shot} {e : Engine} (h : JobOver s u w x e) :
    JobOver s (doneDev u w) w (doneShot x e.run) e := by
  have k := h.record (doneShot (u.shot w) u.engine.run)
  rw [h.shot, h.engine] at k
  refine k.of_reported ?_
  rw [← h.shot, ← h.engine]
  exact mirror_reported _ _ _

theorem JobOver.returnAll {s u : State} {w : Fin 64} {x : Shot} {e : Engine} (h : JobOver s u w x e) :
    JobOver s (returnAll u w) w { x with reservation := 0 } e := by
  unfold Machine.returnAll returnReservation
  split
  · next hz =>
    rw [h.shot] at hz
    have hx : ({ x with reservation := 0 } : Shot) = x := by rw [← hz]
    rw [hx]
    exact h
  · obtain ⟨a, c, f, hrep⟩ := poolChanged_reported u
      (mirror (u.modShot w fun x => { x with reservation := x.reservation - (u.shot w).reservation }) w [1])
    have k := h.record { u.shot w with reservation := (u.shot w).reservation - (u.shot w).reservation }
    have k' := ((k.of_reported (mirror_reported _ w [1])).recounted a c f).of_reported hrep
    exact k'.congr (by rw [h.shot, Nat.sub_self])

theorem JobOver.developed {s u : State} {w : Fin 64} {x : Shot} {e : Engine} (h : JobOver s u w x e) (origin : Nat) :
    JobOver s (developed u w origin) w x e := h.of_reported (shotNotice_reported _ _ _ _ _ _)

theorem JobOver.refreshReady {s u : State} {w : Fin 64} {x : Shot} {e : Engine} (h : JobOver s u w x e) (v : Fin 64) :
    JobOver s (refreshReady u v) w x e := (h.readyMarked v).of_reported (refreshReady_reported u v)

theorem JobOver.releaseCheck {s u : State} {w : Fin 64} {x : Shot} {e : Engine} (h : JobOver s u w x e) (hx : x.releasable = false) :
    JobOver s (releaseCheck u w) w x e := by
  rw [releaseCheck_kept fun _ => by rw [h.shot, hx]]
  exact h

/-- R127: the engine without work. -/
def idleEngine (e : Engine) : Engine := { e with activity := .idle, run := freshRun, replayLine := .none }

theorem JobOver.engineIdle {s u : State} {w : Fin 64} {x : Shot} {e : Engine} (h : JobOver s u w x e) :
    JobOver s (engineIdle u) w x (idleEngine e) := by
  have k := (h.setEngine (idleEngine u.engine)).of_reported (publish_reported _ 5)
  rw [h.engine] at k
  rw [Machine.engineIdle, ← h.engine]
  rw [← h.engine] at k
  exact k

/-- R129, R136: what the end of an inline job comes to, before the engine's choice. -/
theorem endInline_over {s : State} {w : Fin 64} (h : ({ s.shot w with dev := .done } : Shot).releasable = false) :
    ∃ u, JobOver s u w { doneShot (s.shot w) s.engine.run with reservation := 0 } (idleEngine s.engine) ∧
      endInline s w = engineChoose u :=
  ⟨_, (((((JobOver.refl s w).doneDev.returnAll.developed 0).refreshReady w).releaseCheck h).engineIdle), rfl⟩

/-! ### Lines of an inline job (R129) -/

section
variable {s : State} {w : Fin 64} {p : Profile} {d : DevSet} {e : FifoEntry} {rest : List FifoEntry}
  (ha : s.engine.activity = .inline w) (hw : s.engine.run.rowWaits = false) (hf : s.taps.fifo = e :: rest)
  (hp : (s.shot w).profile = some p) (hd : (s.shot w).devSet = some d)
include ha hw hf hp hd

/-- The state in which the row that the entry e completes is counted. -/
theorem exec_inlineRow {row : List Pixel} {lines : List (Nat × List Byte × BitVec 64)} {t : State}
    (hrow : RowOf s p d e.line (s.engine.run.acc ++ e.data) row lines)
    (ht : writePreviewLines (rowCounted (entryTaken s e rest) row) w lines = some t) (hwork : t.port.work = []) :
    exec .inlineLineConsumed s = .next (afterLine t) := by
  rw [exec_inlineLineConsumed_entry ha hw hf hp hd
    ((developLine_row (s := entryTaken s e rest) (hrow.since rfl)).trans ht), finishLine_goes (previewWaits_idle hwork)]

end

/-- R126, R129: what a row inserted by an inline job leaves. -/
structure RowStands (s t : State) (w : Fin 64) (e : FifoEntry) (rest : List FifoEntry) (row : List Pixel) : Prop where
  blocks : { t with mem := s.mem, port := s.port, engine := s.engine, taps := s.taps } = s
  taps : t.taps = { s.taps with fifo := rest }
  engine : t.engine = { s.engine with run := { s.engine.run with
    nextLine := e.line + 1
    acc := []
    hist := row.foldl countPixel s.engine.run.hist
    clip := row.foldl countClip s.engine.run.clip } }
  reads : t.port.reads = s.port.reads
  held : t.port.heldReads = s.port.heldReads

theorem RowInserted.stands {s t : State} {w : Fin 64} {e : FifoEntry} {rest : List FifoEntry} {row : List Pixel}
    {lines : List (Nat × List Byte × BitVec 64)} (h : RowInserted (rowCounted (entryTaken s e rest) row) t w lines) :
    RowStands s t w e rest row := by
  have hblocks := congrArg (fun u : State => { u with engine := s.engine, taps := s.taps }) h.blocks
  have htaps := congrArg State.taps h.blocks
  have hengine := congrArg State.engine h.blocks
  have hreads := congrArg MemoryPort.reads h.inserted.port
  have hheld := congrArg MemoryPort.heldReads h.inserted.port
  exact ⟨hblocks, htaps, hengine, hreads, hheld⟩

theorem RowStands.field {α : Type} {s t : State} {w : Fin 64} {e : FifoEntry} {rest : List FifoEntry} {row : List Pixel}
    (h : RowStands s t w e rest row) (f : State → α)
    (hf : ∀ (u : State) (m : Memory) (q : MemoryPort) (g : Engine) (x : Taps),
      f { u with mem := m, port := q, engine := g, taps := x } = f u := by intros; rfl) : f t = f s := by
  rw [← hf t s.mem s.port s.engine s.taps, h.blocks]

end Sys2Proof.Machine

open Sys2Proof Sys2Proof.Machine

/-- Settles O53: a line that completes no row goes to the row being formed; a completed row's lines enter one by one, behind the granule
that one of them needs; and the last row ends the job. -/
theorem inlineLineJoinsRow : Obligations.InlineLineJoinsRow := by
  refine fun s w p d e rest ha hw hf hp hd hstop => ⟨fun hpart hpreview hlast => ?_,
    fun row lines g n more res hrow hlast hmapped hsome hg hfree hres hwork hroom => ?_,
    fun row lines hrow hmapped hwork hroom => ?_⟩
  · have hexec := exec_inlineLineConsumed_entry ha hw hf hp hd (developLine_part e.data hpart)
    generalize hu : (entryTaken s e rest).setEngine _ = u at hexec
    have hline : u.engine.run.nextLine = e.line + 1 := by rw [← hu]; rfl
    rw [finishLine_goes (by rw [← hu]; exact hpreview), afterLine_inline (by rw [← hu]; exact ha) (by rw [← hu]; exact hp),
      if_neg (by rw [← hu]; exact hstop), hline, if_neg hlast, ← hu] at hexec
    exact hexec
  · obtain ⟨t, hwritten, htwork, hreports, hinserted⟩ := rowAllocated (s := rowCounted (entryTaken s e rest) row) hmapped hsome hg hfree
      hres hwork (by exact (Nat.add_assoc _ _ _ ▸ hroom))
    have hexec := exec_inlineRow ha hw hf hp hd hrow hwritten htwork
    have hrep := hreports.reported
    have hmaps : t.maps = _ := hrep.field State.maps
    have hshots : t.shots = _ := hrep.field State.shots
    have hengine : t.engine = (rowCounted (entryTaken s e rest) row).engine := hrep.field State.engine
    have hshot : t.shot w = previewCounted (s.shot w) res := (congrArg (·.get w) hshots).trans (State.shot_setShot_same s w _)
    have hothers (v : Fin 64) (hv : v ≠ w) : t.shot v = s.shot v ∧ t.mapsOf v = s.mapsOf v :=
      ⟨(congrArg (·.get v) hshots).trans (State.shot_setShot_other s w v _ hv), (congrArg (·.get v) hmaps).trans (mapsOf_set_other s _ hv)⟩
    have hmapsOf : t.mapsOf w = { s.mapsOf w with preview := (s.mapsOf w).preview.setIfInBounds g (some n) } :=
      (congrArg (·.get w) hmaps).trans (mapsOf_set_same s w _)
    have hentry (h : Nat) : t.previewEntry w h = if h = g then some n else s.previewEntry w h :=
      (hrep.field fun u => u.previewEntry w h).trans (previewFilled_entry (s := rowCounted (entryTaken s e rest) row) n more res hg h)
    have hbase : previewFilled (rowCounted (entryTaken s e rest) row) w g n more res = { s with
        pool := { s.pool with free := more }
        maps := t.maps
        shots := t.shots
        taps := { s.taps with fifo := rest }
        engine := { s.engine with run := { s.engine.run with
          nextLine := e.line + 1
          acc := []
          hist := row.foldl countPixel s.engine.run.hist
          clip := row.foldl countClip s.engine.run.clip } } } := by
      rw [hmaps, hshots]
      rfl
    have hprofile : (t.shot w).profile = some p := (congrArg Shot.profile hshot).trans hp
    rw [afterLine_inline (by rw [hengine]; exact ha) hprofile, if_neg (by rw [hengine]; exact hstop),
      if_neg (by rw [hengine]; exact hlast)] at hexec
    refine ⟨t, hexec, by rw [hentry, if_pos rfl], hrep.field fun u => u.pool.free, hshot, hothers, by rw [hmapsOf],
      fun h hne => by rw [hentry, if_neg hne], hinserted, ?_⟩
    rw [hbase] at hreports
    exact hreports
  · obtain ⟨t, h⟩ := rowInserted (s := rowCounted (entryTaken s e rest) row) (w := w) hmapped hwork hroom
    have hstands := h.stands
    have hexec := exec_inlineRow ha hw hf hp hd hrow h.written (h.inserted.work.trans hwork)
    have hprofile : (t.shot w).profile = some p := (hstands.field fun u => (u.shot w).profile).trans hp
    have hactive : t.engine.activity = .inline w := by rw [hstands.engine]; exact ha
    rw [afterLine_inline hactive hprofile, if_neg (by rw [hstands.engine]; exact hstop)] at hexec
    have hline : t.engine.run.nextLine = e.line + 1 := by rw [hstands.engine]
    rw [hline] at hexec
    have hshot (v : Fin 64) : t.shot v = s.shot v := hstands.field fun u => u.shot v
    have hmaps : t.maps = s.maps := hstands.field State.maps
    have hfree : t.pool.free = s.pool.free := hstands.field fun u => u.pool.free
    refine ⟨fun hlast => ?_, fun hlast hq hinline hkept => ?_, fun j more q hlast hq hj hcapturing hjp hinline hkept => ?_⟩
    · rw [if_neg hlast] at hexec
      exact ⟨t, hexec, h.inserted.since rfl rfl rfl, hstands.blocks, hstands.taps, hstands.engine⟩
    · rw [if_pos hlast] at hexec
      obtain ⟨u, hover, hend⟩ := endInline_over (s := t) (w := w) (by rw [hshot]; exact hkept)
      rw [engineChoose_empty (hover.noInline (fun v hv => by rw [hshot]; exact hinline v hv) DevStatus.noConfusion) (by rw [hover.engine, hstands.engine]; exact hq)] at hend
      rw [hend] at hexec
      refine ⟨u, hexec, hover.taps.trans hstands.taps, hover.maps.trans hmaps, hover.free.trans hfree, fun v hv =>
        (hover.others v hv).trans (hshot v), ?_, ?_⟩
      · rw [hover.shot, hshot, hstands.engine]
        rfl
      · rw [hover.engine, hstands.engine]
        rfl
    · rw [if_pos hlast] at hexec
      obtain ⟨u, hover, hend⟩ := endInline_over (s := t) (w := w) (by rw [hshot]; exact hkept)
      have hjob : u.shot j.window = s.shot j.window := (hover.others _ hj).trans (hshot _)
      have hjprofile : (u.shot j.window).profile = some q := by rw [hjob, hjp]
      have hbegun := (beginReplay_begun more hjprofile).since (hover.maps.trans hmaps) (hover.reads.trans hstands.reads)
        (hover.held.trans hstands.held)
      have hshots := beginReplay_shots more hjprofile
      have hbmaps : (beginReplay u j more).maps = u.maps := beginReplay_field more hjprofile State.maps
      rw [engineChoose_job (by rw [hover.engine]; rfl)
        (hover.noInline (fun v hv => by rw [hshot]; exact hinline v hv) DevStatus.noConfusion)
        (by rw [hover.engine, hstands.engine]; exact hq) (by rw [hjob]; exact hcapturing)] at hend
      rw [hend] at hexec
      generalize beginReplay u j more = b at hexec hbegun hshots hbmaps
      have hother (v : Fin 64) (hv : v ≠ j.window) : b.shot v = u.shot v :=
        (congrArg (·.get v) hshots).trans (State.shot_setShot_other u j.window v _ hv)
      have hw : b.shot w = { doneShot (s.shot w) t.engine.run with reservation := 0 } := by
        rw [hother w hj.symm, hover.shot, hshot]
      refine ⟨b, hexec, hbegun, by rw [hw]; rfl, by rw [hw], ?_, ?_, hbmaps.trans (hover.maps.trans hmaps), fun v hv hvj => ?_⟩
      · rw [hw, hstands.engine]
        rfl
      · rw [← hjob]
        exact (congrArg (·.get j.window) hshots).trans (State.shot_setShot_same u j.window _)
      · rw [hother v hvj, hover.others v hv, hshot]
end

section
/-! PROOFS. Lines of a replay job: what the inserted-write queue keeps, how a job is suspended and how it ends. Settles O54. -/

namespace Sys2Proof.Machine

set_option Elab.async false

/-! ### The inserted-write queue only grows (R56) -/

/-- The writes that were queued in s still head the queue in t. -/
def WritesGrow (s t : State) : Prop := s.port.writes <+: t.port.writes

theorem WritesGrow.refl (s : State) : WritesGrow s s := List.prefix_refl _

theorem WritesGrow.of_eq {s t : State} (h : t.port.writes = s.port.writes := by rfl) : WritesGrow s t := by
  rw [WritesGrow, h]

theorem WritesGrow.trans {s t u : State} (h : WritesGrow s t) (k : WritesGrow t u) : WritesGrow s u := List.IsPrefix.trans h k

theorem WritesGrow.ite {c : Prop} [Decidable c] {s t u : State} (ht : c → WritesGrow s t) (hu : ¬c → WritesGrow s u) :
    WritesGrow s (if c then t else u) := by
  split
  · next h => exact ht h
  · next h => exact hu h

theorem work_grow (s : State) (ws : List OwnWork) : WritesGrow s { s with port := { s.port with work := ws } } := .of_eq

theorem enterWrite_grow (s : State) (x : Nat × List Byte × BitVec 64) : WritesGrow s (enterWrite s x) := List.prefix_append _ _

theorem writeNotice_grow (s : State) (n : Notice) : WritesGrow s (writeNotice s n) := List.prefix_append _ _

theorem evaluateAttention_grow (s : State) : WritesGrow s (evaluateAttention s) := .of_eq (congrArg MemoryPort.writes (evaluateAttention_port s))

theorem completeOrder_grow (s : State) (st : OrderStatus) : WritesGrow s (completeOrder s st) := by
  unfold completeOrder
  split
  · exact List.prefix_append _ _
  · exact .refl s

theorem issueRead_writes (s : State) (p : ReadPurpose) (a : Nat) : (issueRead s p a).port.writes = s.port.writes := by
  obtain ⟨-, -, h⟩ | ⟨-, h⟩ := issueRead_cases (s := s) p a <;> rw [h]; rfl

theorem takeOrder_grow (s : State) : WritesGrow s (takeOrder s) := by
  unfold takeOrder
  exact .ite (fun _ => .of_eq (issueRead_writes _ _ _)) fun _ => .refl s

theorem runWork_grow {w : OwnWork} {s t : State} (h : runWork w s = some t) : WritesGrow s t := by
  cases w with
  | line l =>
    obtain ⟨-, ht⟩ := Option.ite_none_right_eq_some.mp h
    cases ht
    exact enterWrite_grow s _
  | notice n _ =>
    obtain ⟨-, rfl⟩ | ⟨-, -, rfl | ⟨-, rfl⟩⟩ := takeNotice_cases s t n h
    · exact .of_eq
    · exact writeNotice_grow s n
    · exact List.prefix_append _ _
  | overflow =>
    obtain ⟨-, ht⟩ := Option.ite_none_right_eq_some.mp h
    cases ht
    exact List.prefix_append _ _
  | attention => cases h; exact evaluateAttention_grow s
  | orderStatus st _ =>
    obtain ⟨-, ht⟩ := Option.ite_none_right_eq_some.mp h
    cases ht
    exact completeOrder_grow s st
  | nextOrder =>
    cases h
    exact WritesGrow.trans (t := { s with order := { s.order with phase := .idle } }) .of_eq (takeOrder_grow _)

theorem settle_grow (n : Nat) (s : State) : WritesGrow s (settle n s) := by
  induction n generalizing s with
  | zero => exact .refl s
  | succ n ih =>
    simp only [settle]
    split
    · exact .refl s
    · split
      · exact .refl s
      · next h => exact ((work_grow s _).trans (runWork_grow h)).trans (ih _)

theorem comeUp_grow (s : State) (w : OwnWork) : WritesGrow s (comeUp s w) := by
  obtain ⟨ws, h | ⟨n, _, -, h⟩⟩ := comeUp_cases s w <;> rw [h] <;> exact .of_eq

theorem bringUp_grow (n : Nat) (s : State) : WritesGrow s (bringUp n s) := by
  induction n generalizing s with
  | zero => exact .refl s
  | succ n ih =>
    simp only [bringUp]
    split
    · exact .refl s
    · exact ((work_grow s _).trans (comeUp_grow _ _)).trans (ih _)

theorem settleFree_grow (n : Nat) (s : State) : WritesGrow s (settleFree n s) := by
  induction n generalizing s with
  | zero => exact .refl s
  | succ n ih =>
    simp only [settleFree]
    split
    · exact .refl s
    · exact .ite (fun _ => (settle_grow 1 s).trans (ih _)) fun _ => .refl s

theorem emit_grow (s : State) (w : OwnWork) : WritesGrow s (emit s w) := by
  unfold emit joinWork
  refine .ite (fun _ => ?_) fun _ => .ite (fun _ => .of_eq) fun _ => comeUp_grow s w
  exact ((work_grow s _).trans (settle_grow 8 _)).trans ((bringUp_grow _ _).trans (settleFree_grow _ _))

theorem emitLine_grow (s : State) (l : OwnLine) : WritesGrow s (emitLine s l) := .ite (fun _ => .refl s) fun _ => emit_grow s _

theorem publish_grow (s : State) (n : Fin 9) : WritesGrow s (publish s n) := emitLine_grow s _

theorem mirror_grow (s : State) (w : Fin 64) (ls : List (Fin 64)) : WritesGrow s (mirror s w ls) := by
  unfold mirror
  induction ls generalizing s with
  | nil => exact .refl s
  | cons l ls ih => exact (emitLine_grow s _).trans (ih _)

theorem refreshHead_grow (s : State) : WritesGrow s (refreshHead s) := by
  simp only [refreshHead]
  refine .ite (fun _ => .refl s) fun _ => ?_
  have hpublish := publish_grow (headSet s) 4
  split
  · exact WritesGrow.trans hpublish (emit_grow _ _)
  · exact hpublish

theorem refreshReady_grow (s : State) (w : Fin 64) : WritesGrow s (refreshReady s w) :=
  WritesGrow.trans (t := s.setTetherQueue _) .of_eq (refreshHead_grow _)

theorem changeDev_grow (s : State) (w : Fin 64) (f : Shot → Shot) : WritesGrow s (changeDev s w f) :=
  WritesGrow.trans (t := s.modShot w f) .of_eq (mirror_grow _ _ _)

theorem engineIdle_grow (s : State) : WritesGrow s (engineIdle s) :=
  WritesGrow.trans (t := s.setEngine (idleEngine s.engine)) .of_eq (publish_grow _ _)

theorem beginInline_grow (s : State) (w : Fin 64) : WritesGrow s (beginInline s w) :=
  WritesGrow.trans (t := s.setEngine { s.engine with activity := .inline w, run := freshRun }) .of_eq (publish_grow _ _)

theorem requestLine_writes (s : State) (w : Fin 64) (l : Nat) : (requestLine s w l).port.writes = s.port.writes := by
  obtain ⟨-, h⟩ | ⟨n, -, h⟩ := requestLine_cases (s := s) w l <;> rw [h]
  · rfl
  · exact issueRead_writes _ _ _

/-! ### A replayed line is used (R132) -/

/-- R132: the running replay job has used its line, and its running state is `run`. -/
structure LineUsed (s b : State) (run : Running) : Prop where
  engine : b.engine = { s.engine with replayLine := .none, run := run }
  shots : b.shots = s.shots
  maps : b.maps = s.maps
  pool : b.pool = s.pool
  taps : b.taps = s.taps
  reads : b.port.reads = s.port.reads
  held : b.port.heldReads = s.port.heldReads

theorem LineUsed.shot {s b : State} {run : Running} (h : LineUsed s b run) (v : Fin 64) : b.shot v = s.shot v :=
  congrArg (·.get v) h.shots

theorem LineUsed.rawEntry {s b : State} {run : Running} (h : LineUsed s b run) (w : Fin 64) (g : Nat) :
    b.rawEntry w g = s.rawEntry w g := by
  simp only [State.rawEntry, State.mapsOf, h.maps]

/-- R132: the job goes on at line l, its next input row advanced at a boundary. -/
def jobAt (p : Profile) (j : Job) (l : Nat) : Job := if boundaryAt p j l then { j with nextRow := l / linesPerRow p.width } else j

section
variable {s b : State} {run : Running} {j : Job} {rest : List Job} {p : Profile} (h : LineUsed s b run)
  (ha : s.engine.activity = .replay) (hq : s.engine.queue = j :: rest) (hp : (s.shot j.window).profile = some p)
  (hstop : s.engine.stop ≠ some j.window)
include h ha hq hp hstop

theorem LineUsed.afterLine_eq : afterLine b =
    if run.nextLine = p.lines then endReplay b j
    else if boundaryAt p j run.nextLine then
      if s.engine.suspend then suspendReplay b j rest (run.nextLine / linesPerRow p.width)
      else requestLine (b.setEngine { b.engine with
        queue := { j with nextRow := run.nextLine / linesPerRow p.width } :: rest }) j.window run.nextLine
    else requestLine b j.window run.nextLine := by
  have hrun : b.engine.run = run := by rw [h.engine]
  have hsuspend : b.engine.suspend = s.engine.suspend := by rw [h.engine]
  rw [afterLine_replay (p := p) (j := j) (rest := rest) (by rw [h.engine]; exact ha) (by rw [h.engine]; exact hq)
    (by rw [h.shot]; exact hp), if_neg (by rw [h.engine]; exact hstop), hrun, hsuspend]

/-- R132: the job asks for its next line. -/
theorem LineUsed.goes (hlast : run.nextLine ≠ p.lines) (hgo : boundaryAt p j run.nextLine = false ∨ s.engine.suspend = false) :
    LineAsked s (afterLine b) j rest p run ∧ (afterLine b).shots = s.shots ∧ (afterLine b).maps = s.maps ∧
      (afterLine b).pool = s.pool ∧ (afterLine b).mem = b.mem ∧ (afterLine b).port.writes = b.port.writes := by
  have hb : b.setEngine { b.engine with queue := j :: rest } = b := by
    have hbq : b.engine.queue = j :: rest := by rw [h.engine]; exact hq
    rw [← hbq]
    rfl
  have hafter : afterLine b = requestLine (b.setEngine { b.engine with queue := jobAt p j run.nextLine :: rest }) j.window run.nextLine := by
    rw [h.afterLine_eq ha hq hp hstop, if_neg hlast, jobAt]
    obtain hboundary | hsuspend := hgo
    · rw [hboundary, if_neg Bool.false_ne_true, if_neg Bool.false_ne_true, hb]
    · rw [hsuspend, if_neg Bool.false_ne_true]
      split
      · rfl
      · rw [hb]
  have hasked := requestLine_requested (b.setEngine { b.engine with queue := jobAt p j run.nextLine :: rest }) j.window run.nextLine
  have hwrites := requestLine_writes (b.setEngine { b.engine with queue := jobAt p j run.nextLine :: rest }) j.window run.nextLine
  rw [← hafter] at hasked hwrites
  have hentry := h.rawEntry j.window (64 * run.nextLine / Config.granule)
  have hshots : (afterLine b).shots = b.shots := hasked.field State.shots
  have hmaps : (afterLine b).maps = b.maps := hasked.field State.maps
  have hpool : (afterLine b).pool = b.pool := hasked.field State.pool
  have hmem : (afterLine b).mem = b.mem := hasked.field State.mem
  refine ⟨⟨?_, fun hn => ?_, fun n hn hheld hroom => ?_⟩, hshots.trans h.shots, hmaps.trans h.maps, hpool.trans h.pool, hmem, hwrites⟩
  · rw [hasked.engine, State.setEngine_engine, h.engine, ← hentry]
    rfl
  · have hport := hasked.unmapped (hentry.trans hn)
    rw [hport]
    exact h.reads
  · rw [← h.reads]
    exact hasked.asked n (hentry.trans hn) (h.held.trans hheld) (by rw [← h.reads] at hroom; exact hroom)

end

/-! ### A job is suspended (R134) -/

theorem inlineShot_congr {s t : State} (h : ∀ v, (t.shot v).dev = .inline ↔ (s.shot v).dev = .inline) : inlineShot t = inlineShot s := by
  unfold inlineShot
  congr 1
  funext v
  exact decide_eq_decide.mpr (h v)

theorem engineChoose_inline {s : State} {v : Fin 64} (ha : s.engine.activity = .idle) (h : inlineShot s = some v) :
    engineChoose s = beginInline s v := by
  simp only [engineChoose, if_pos ha, h]

theorem engineIdle_reported (s : State) : Reported (s.setEngine (idleEngine s.engine)) (engineIdle s) := publish_reported _ 5

@[simp] theorem readyMarked_pool (s : State) (w : Fin 64) : (readyMarked s w).pool = s.pool := rfl

/-- R134: the queue with the suspended job j at its head, its progress saved at input row `row`. -/
def suspendedQueue (j : Job) (rest : List Job) (row : Nat) (run : Running) : List Job :=
  { j with nextRow := row, saved := some { crc := run.crc, hist := run.hist, clip := run.clip, still := run.still } } :: rest

/-- R134: the suspend request is met, and the job waits at the head of the queue. -/
def suspendMet (s : State) (j : Job) (rest : List Job) (row : Nat) : State :=
  s.setEngine { s.engine with suspend := false, queue := suspendedQueue j rest row s.engine.run }

theorem suspendReplay_eq (s : State) (j : Job) (rest : List Job) (row : Nat) :
    suspendReplay s j rest row = engineChoose (engineIdle (refreshReady (changeDev (suspendMet s j rest row) j.window
      fun x => { x with dev := .queued }) j.window)) := rfl

/-- R134: what a suspension for the inline job of window v comes to. -/
structure Suspended (s u : State) (j : Job) (rest : List Job) (row : Nat) (v : Fin 64) : Prop where
  engine : u.engine = { s.engine with
    activity := .inline v, suspend := false, run := freshRun, replayLine := .none, queue := suspendedQueue j rest row s.engine.run }
  shots : u.shots = s.shots.set j.window.val { s.shot j.window with dev := .queued }
  maps : u.maps = s.maps
  pool : u.pool = s.pool
  reads : u.port.reads = s.port.reads
  writes : WritesGrow s u

theorem suspendReplay_suspended {s : State} {j : Job} {v : Fin 64} (rest : List Job) (row : Nat) (hi : inlineShot s = some v)
    (hdev : (s.shot j.window).dev ≠ .inline) : Suspended s (suspendReplay s j rest row) j rest row v := by
  have hready := refreshReady_after (changeDev_reported (suspendMet s j rest row) j.window fun x => { x with dev := .queued }) j.window
  have hgrow := (changeDev_grow (suspendMet s j rest row) j.window fun x => { x with dev := .queued }).trans
    (refreshReady_grow (changeDev (suspendMet s j rest row) j.window fun x => { x with dev := .queued }) j.window)
  rw [suspendReplay_eq]
  generalize refreshReady (changeDev (suspendMet s j rest row) j.window fun x => { x with dev := .queued }) j.window = c at hready hgrow ⊢
  have hcengine : c.engine = { s.engine with suspend := false, queue := suspendedQueue j rest row s.engine.run } :=
    (hready.field State.engine).trans (readyMarked_engine _ _)
  have hcshots := hready.field State.shots
  have hcmaps := hready.field State.maps
  have hcpool := hready.field State.pool
  have hcreads := hready.portField MemoryPort.reads
  simp only [readyMarked_maps, State.setShot_maps, readyMarked_pool, State.setShot_pool, readyMarked_port, State.setShot_port] at hcmaps hcpool hcreads
  have hidle := engineIdle_reported c
  have hshots : (engineIdle c).shots = s.shots.set j.window.val { s.shot j.window with dev := .queued } :=
    (hidle.field State.shots).trans hcshots
  have hinline : inlineShot (engineIdle c) = some v := by
    rw [← hi]
    refine inlineShot_congr fun x => ?_
    have hx : (engineIdle c).shot x = (s.setShot j.window { s.shot j.window with dev := .queued }).shot x := congrArg (·.get x) hshots
    rw [hx]
    by_cases hj : x = j.window
    · rw [hj, State.shot_setShot_same]
      exact ⟨fun h => DevStatus.noConfusion h, fun h => absurd h hdev⟩
    · rw [State.shot_setShot_other _ _ _ _ hj]
  have hactivity : (engineIdle c).engine.activity = .idle := hidle.field fun u => u.engine.activity
  rw [engineChoose_inline hactivity hinline]
  have hbegun := (hidle.map fun u => u.setEngine { u.engine with activity := .inline v, run := freshRun }).trans
    (beginInline_reported (engineIdle c) v)
  have hwrites : WritesGrow s (beginInline (engineIdle c) v) :=
    (WritesGrow.trans (t := suspendMet s j rest row) .of_eq hgrow).trans ((engineIdle_grow c).trans (beginInline_grow _ v))
  generalize beginInline (engineIdle c) v = u at hbegun hwrites
  have huengine := hbegun.field State.engine
  have hushots := hbegun.field State.shots
  have humaps := hbegun.field State.maps
  have hupool := hbegun.field State.pool
  have hureads := hbegun.portField MemoryPort.reads
  refine ⟨?_, hushots.trans hcshots, humaps.trans hcmaps, hupool.trans hcpool, hureads.trans hcreads, hwrites⟩
  rw [huengine]
  simp only [State.setEngine_engine, idleEngine, hcengine]

section
variable {s b : State} {run : Running} {j : Job} {rest : List Job} {p : Profile} (h : LineUsed s b run)
  (ha : s.engine.activity = .replay) (hq : s.engine.queue = j :: rest) (hp : (s.shot j.window).profile = some p)
  (hstop : s.engine.stop ≠ some j.window)
include h ha hq hp hstop

theorem LineUsed.suspends {v : Fin 64} (hlast : run.nextLine ≠ p.lines) (hb : boundaryAt p j run.nextLine = true)
    (hs : s.engine.suspend = true) (hi : inlineShot s = some v) (hdev : (s.shot j.window).dev = .replaying) :
    JobSuspended s (afterLine b) j rest p run v ∧ (afterLine b).maps = s.maps ∧ (afterLine b).pool = s.pool ∧
      WritesGrow b (afterLine b) := by
  have hrun : b.engine.run = run := by rw [h.engine]
  have hinline : inlineShot b = some v := by
    rw [← hi]
    exact inlineShot_congr fun x => by rw [h.shot]
  rw [h.afterLine_eq ha hq hp hstop, if_neg hlast, if_pos hb, if_pos hs]
  obtain ⟨hengine, hshots, hmaps, hpool, hreads, hwrites⟩ :=
    suspendReplay_suspended rest (run.nextLine / linesPerRow p.width) hinline (by rw [h.shot, hdev]; exact DevStatus.noConfusion)
  generalize suspendReplay b j rest (run.nextLine / linesPerRow p.width) = u at hengine hshots hmaps hpool hreads hwrites
  refine ⟨⟨?_, ?_, fun x hx => ?_, hreads.trans h.reads⟩, hmaps.trans h.maps, hpool.trans h.pool, hwrites⟩
  · rw [hengine, hrun, h.engine]
    rfl
  · have hu : u.shot j.window = { b.shot j.window with dev := .queued } :=
      (congrArg (·.get j.window) hshots).trans (State.shot_setShot_same b j.window _)
    rw [hu, h.shot]
  · exact ((congrArg (·.get x) hshots).trans (State.shot_setShot_other b j.window x _ hx)).trans (h.shot x)

end

/-! ### A replay job ends (R133, R136) -/

theorem JobOver.changeDev {s u : State} {w : Fin 64} {x : Shot} {e : Engine} (h : JobOver s u w x e) (f : Shot → Shot) :
    JobOver s (changeDev u w f) w (f x) e :=
  ((h.record (f (u.shot w))).of_reported (changeDev_reported u w f)).congr (by rw [h.shot])

theorem JobOver.removeJob {s u : State} {w : Fin 64} {x : Shot} {e : Engine} (h : JobOver s u w x e) (v : Fin 64) :
    JobOver s (removeJob u v) w x { e with queue := e.queue.filter fun j => j.window ≠ v } := by
  have k := (h.setEngine { u.engine with queue := u.engine.queue.filter fun j => j.window ≠ v }).of_reported (removeJob_reported u v)
  rw [← h.engine]
  exact k

theorem JobOver.evaluateUndecided {s u : State} {w : Fin 64} {x : Shot} {e : Engine} (h : JobOver s u w x e)
    (hx : x.tether ≠ .undecided) : JobOver s (evaluateUndecided u w) w x e := by
  rw [evaluateUndecided_waits fun ⟨_, ht, _⟩ => hx (by rw [← h.shot]; exact ht)]
  exact h

theorem JobOver.unsuspended {s u : State} {w : Fin 64} {x : Shot} {e : Engine} (h : JobOver s u w x e) :
    JobOver s (u.setEngine { u.engine with suspend := false }) w x { e with suspend := false } := by
  rw [← h.engine]
  exact h.setEngine _

/-- R133: the record with the checksum of a job that has made one. -/
def crcGiven (x : Shot) (run : Running) : Shot :=
  { x with crc := match run.crc with
    | none => x.crc
    | some r => some (crcFinish r, .replay) }

/-- R25, R136: the record of a shot whose CHECK job has ended. -/
def settledShot (x : Shot) : Shot :=
  { x with
    dev := if x.developed then .failed else .none
    checkOnly := false
    hist := if x.developed then zeroHist else x.hist
    clip := if x.developed then ⟨0, 0, 0⟩ else x.clip }

theorem JobOver.settleDev {s u : State} {w : Fin 64} {x : Shot} {e : Engine} (h : JobOver s u w x e) :
    JobOver s (settleDev u w) w (settledShot x) e := by
  have hx : u.shot w = x := h.shot
  unfold Machine.settleDev settledDev
  rw [hx]
  by_cases hd : x.developed = true
  · rw [if_pos hd]
    have k := (h.record { u.shot w with
      dev := .failed, reason := x.reason, checkOnly := false, hist := zeroHist, clip := ⟨0, 0, 0⟩ }).of_reported
        (mirror_reported _ w ([3, 6] ++ histLines))
    refine k.congr ?_
    rw [hx, settledShot, if_pos hd, if_pos hd, if_pos hd]
  · rw [if_neg hd]
    refine (h.changeDev fun y => { y with dev := .none, checkOnly := false }).congr ?_
    rw [settledShot, if_neg hd, if_neg hd, if_neg hd]

/-- R133: the record of the shot of job j at its end. -/
def jobShot (x : Shot) (j : Job) (run : Running) : Shot :=
  match j.kind with
  | .develop => doneShot (crcGiven x run) run
  | .check => settledShot (crcGiven x run)

theorem jobShot_tether (x : Shot) (j : Job) (run : Running) : (jobShot x j run).tether = x.tether := by
  unfold jobShot
  cases j.kind <;> rfl

theorem jobShot_dev (x : Shot) (j : Job) (run : Running) : (jobShot x j run).dev ≠ .inline := by
  unfold jobShot
  cases j.kind with
  | develop => exact DevStatus.noConfusion
  | check =>
    simp only [settledShot]
    split <;> exact DevStatus.noConfusion

theorem jobSettled_over (s : State) (j : Job) :
    JobOver s (jobSettled s j) j.window (jobShot (s.shot j.window) j s.engine.run) s.engine := by
  have hcrc : JobOver s (match s.engine.run.crc with
      | none => s
      | some r => Machine.changeDev s j.window fun x => { x with crc := some (crcFinish r, .replay) }) j.window
      (crcGiven (s.shot j.window) s.engine.run) s.engine := by
    rw [crcGiven]
    cases s.engine.run.crc with
    | none => exact .refl s j.window
    | some r => exact (JobOver.refl s j.window).changeDev _
  simp only [jobSettled, jobShot]
  cases j.kind with
  | develop => exact hcrc.doneDev
  | check => exact hcrc.settleDev

/-- R133: the state once the notice and the checks of the job's end are made. -/
def jobEnded (s : State) (j : Job) (origin : Nat) : State :=
  releaseCheck (evaluateUndecided (refreshReady (releaseCheck (developed (returnAll (removeJob (jobSettled s j) j.window) j.window)
    j.window origin) j.window) j.window) j.window) j.window

theorem endReplay_ended (s : State) (j : Job) : ∃ origin, endReplay s j =
    engineChoose (engineIdle ((jobEnded s j origin).setEngine { (jobEnded s j origin).engine with suspend := false })) := by
  refine ⟨match j.kind with
    | .develop => 1
    | .check => 2, ?_⟩
  cases hk : j.kind <;> simp only [endReplay_eq, jobEnded, hk]

theorem jobEnded_over {s : State} {j : Job} (hkept : (jobShot (s.shot j.window) j s.engine.run).releasable = false)
    (htether : (jobShot (s.shot j.window) j s.engine.run).tether ≠ .undecided) (origin : Nat) :
    JobOver s (jobEnded s j origin) j.window { jobShot (s.shot j.window) j s.engine.run with reservation := 0 }
      { s.engine with queue := s.engine.queue.filter fun k => k.window ≠ j.window } := by
  have hended := ((jobSettled_over s j).removeJob j.window).returnAll.developed origin
  exact (((hended.releaseCheck hkept).refreshReady j.window).evaluateUndecided htether).releaseCheck hkept

/-- R133: what the end of a replay job comes to, before the engine's choice. -/
theorem endReplay_over {s : State} {j : Job} (hkept : (jobShot (s.shot j.window) j s.engine.run).releasable = false)
    (htether : (jobShot (s.shot j.window) j s.engine.run).tether ≠ .undecided) :
    ∃ u, JobOver s u j.window { jobShot (s.shot j.window) j s.engine.run with reservation := 0 }
        (idleEngine { s.engine with suspend := false, queue := s.engine.queue.filter fun k => k.window ≠ j.window }) ∧
      endReplay s j = engineChoose u := by
  obtain ⟨origin, he⟩ := endReplay_ended s j
  exact ⟨_, (jobEnded_over hkept htether origin).unsuspended.engineIdle, he⟩

section
variable {s b : State} {run : Running} {j : Job} {p : Profile} (h : LineUsed s b run)
  (ha : s.engine.activity = .replay) (hq : s.engine.queue = [j]) (hp : (s.shot j.window).profile = some p)
  (hstop : s.engine.stop ≠ some j.window) (hlast : run.nextLine = p.lines)
  (hinline : ∀ v, v ≠ j.window → (s.shot v).dev ≠ .inline)
  (hkept : (jobShot (s.shot j.window) j run).releasable = false) (htether : (s.shot j.window).tether ≠ .undecided)
include h ha hq hp hstop hlast hinline hkept htether

/-- R133: with no other work the engine is IDLE behind the end. -/
theorem LineUsed.ends : JobOver s (afterLine b) j.window { jobShot (s.shot j.window) j run with reservation := 0 }
    { s.engine with activity := .idle, run := freshRun, replayLine := .none, queue := [], suspend := false } := by
  have hrun : b.engine.run = run := by rw [h.engine]
  obtain ⟨u, hover, hend⟩ := endReplay_over (s := b) (j := j) (by rw [h.shot, hrun]; exact hkept)
    (by rw [jobShot_tether, h.shot]; exact htether)
  have hqueue : u.engine.queue = [] := by
    rw [hover.engine]
    have hbq : b.engine.queue = [j] := by rw [h.engine]; exact hq
    simp [idleEngine, hbq]
  rw [h.afterLine_eq ha hq hp hstop, if_pos hlast, hend, engineChoose_empty
    (hover.noInline (fun v hv => by rw [h.shot]; exact hinline v hv) (jobShot_dev _ _ _)) hqueue]
  refine ⟨?_, fun v hv => (hover.others v hv).trans (h.shot v), hover.maps.trans h.maps, hover.free.trans (congrArg Pool.free h.pool),
    hover.taps.trans h.taps, ?_, hover.reads.trans h.reads, hover.held.trans h.held⟩
  · rw [hover.shot, h.shot, hrun]
  · rw [hover.engine] at hqueue ⊢
    rw [h.engine] at hqueue ⊢
    simp only [idleEngine] at hqueue ⊢
    rw [hqueue]

end

/-! ### The line itself (R132) -/

section
variable {s t : State} {data : List Byte} (ht : returnedLine s = some (data, t))
include ht

theorem lineTaken_used : LineUsed s (lineTaken t data) { s.engine.run with
    nextLine := s.engine.run.nextLine + 1, crc := s.engine.run.crc.map fun r => crcBytes r data } := by
  obtain ⟨q, rfl⟩ := returnedLine_blocks ht
  exact ⟨rfl, rfl, rfl, rfl, rfl, rfl, rfl⟩

theorem returnedLine_field {α : Type} (f : State → α)
    (hf : ∀ (u : State) (q : List ReadEntry), f { u with port := { u.port with readFlight := q } } = f u := by intros; rfl) : f t = f s := by
  obtain ⟨q, rfl⟩ := returnedLine_blocks ht
  exact hf s q

end

/-- R125, R126: what a completed row changes of the line's use. -/
theorem LineUsed.row {s b u : State} {run : Running} {w : Fin 64} {lines : List (Nat × List Byte × BitVec 64)} {row : List Pixel}
    (h : LineUsed s b run) (hu : RowInserted (rowCounted b row) u w lines) : LineUsed s u { run with
      acc := [], hist := row.foldl countPixel run.hist, clip := row.foldl countClip run.clip } := by
  have hfield {α : Type} (f : State → α) (hf : ∀ (v : State) (m : Memory) (q : MemoryPort), f { v with mem := m, port := q } = f v) :
      f u = f (rowCounted b row) := by rw [← hf u (rowCounted b row).mem (rowCounted b row).port, hu.blocks]
  have hreads := congrArg MemoryPort.reads hu.inserted.port
  have hheld := congrArg MemoryPort.heldReads hu.inserted.port
  refine ⟨?_, (hfield State.shots fun _ _ _ => rfl).trans h.shots, (hfield State.maps fun _ _ _ => rfl).trans h.maps,
    (hfield State.pool fun _ _ _ => rfl).trans h.pool, (hfield State.taps fun _ _ _ => rfl).trans h.taps,
    Eq.trans hreads h.reads, Eq.trans hheld h.held⟩
  rw [hfield State.engine fun _ _ _ => rfl, rowCounted, State.setEngine_engine, h.engine]

/-- R125, R132: the lines of a replayed row have entered behind the writes queued before. -/
structure RowReplayed (s u : State) (w : Fin 64) (lines : List (Nat × List Byte × BitVec 64)) : Prop where
  mem : u.mem = lines.foldl (fun m l => m.writeLine (previewAddr s w l.1) l.2.1 l.2.2) s.mem
  triples : u.port.writes.map (fun x => (x.addr, x.data, x.mask)) =
    s.port.writes.map (fun x => (x.addr, x.data, x.mask)) ++ lines.map (fun l => (previewAddr s w l.1, l.2.1, l.2.2))

theorem RowReplayed.entered {s u : State} {w : Fin 64} {lines : List (Nat × List Byte × BitVec 64)} (h : RowReplayed s u w lines) :
    (u.port.writes.drop s.port.writes.length).map (fun x => (x.addr, x.data, x.mask)) =
      lines.map fun l => (previewAddr s w l.1, l.2.1, l.2.2) := by
  rw [List.map_drop, h.triples]
  exact List.drop_left' (List.length_map _)

theorem RowReplayed.prefixed {s u v : State} {w : Fin 64} {lines : List (Nat × List Byte × BitVec 64)} (h : RowReplayed s u w lines)
    (k : WritesGrow u v) : (lines.map fun l => (previewAddr s w l.1, l.2.1, l.2.2)) <+:
      (v.port.writes.drop s.port.writes.length).map fun x => (x.addr, x.data, x.mask) := by
  obtain ⟨more, hmore⟩ := k
  rw [← hmore, List.map_drop, List.map_append, h.triples, List.append_assoc, List.drop_left' (List.length_map _)]
  exact List.prefix_append _ _

theorem boundaryAt_develop {p : Profile} {j : Job} {d : DevSet} {l : Nat} (hk : j.kind = .develop) (hd : d.scale = p.devSet.scale) :
    boundaryAt p j l = decide (l % (2 * d.scale * linesPerRow p.width) = 0) := by
  rw [boundaryAt, hk, hd]
  rfl

end Sys2Proof.Machine

open Sys2Proof Sys2Proof.Machine

/-- Settles O54: the returned line goes to the checksum and the row; behind it the job asks for the next one, is suspended, or ends. -/
theorem replayLineFeedsCheck : Obligations.ReplayLineFeedsCheck := by
  intro s t j rest p data run ha hq hw ht hp hstill hpreview hstop hrun
  have hused := lineTaken_used ht
  rw [← hrun] at hused
  have htp : (t.shot j.window).profile = some p := (returnedLine_field ht fun u => (u.shot j.window).profile).trans hp
  have htstill : t.engine.run.still = none := (returnedLine_field ht fun u => u.engine.run.still).trans hstill
  have htline : t.engine.run.nextLine = s.engine.run.nextLine := returnedLine_field ht fun u => u.engine.run.nextLine
  have htacc : t.engine.run.acc = s.engine.run.acc := returnedLine_field ht fun u => u.engine.run.acc
  have htpreview : previewWaits (lineTaken t data) = false := (returnedLine_field ht previewWaits).trans hpreview
  have htmem : (lineTaken t data).mem = s.mem := returnedLine_field ht State.mem
  have hcheck (hk : j.kind = .check) : exec .replayLineReturned s = .next (afterLine (lineTaken t data)) := by
    rw [exec_replayLineReturned ha hq hw ht (useReplayLine_check data htp htstill hk), finishLine_goes htpreview]
  have hline : run.nextLine = s.engine.run.nextLine + 1 := by rw [hrun]
  have hpartial (d : DevSet) (hk : j.kind = .develop) (hd : j.set = some d)
      (hpart : (s.engine.run.nextLine + 1) % (2 * d.scale * linesPerRow p.width) ≠ 0) : ∃ u, u.mem = s.mem ∧
        LineUsed s u { run with acc := s.engine.run.acc ++ data } ∧ exec .replayLineReturned s = .next (afterLine u) := by
    have hline := useReplayLine_develop data htp htstill hk hd
    rw [htline, developLine_part data hpart, Option.map_some] at hline
    have hexec := exec_replayLineReturned ha hq hw ht hline
    generalize hu : (lineTaken t data).setEngine _ = u at hexec
    rw [finishLine_goes (by rw [← hu]; exact htpreview)] at hexec
    refine ⟨u, by rw [← hu]; exact htmem, ?_, hexec⟩
    rw [← hu]
    refine ⟨?_, hused.shots, hused.maps, hused.pool, hused.taps, hused.reads, hused.held⟩
    have hacc : s.engine.run.acc = run.acc := by rw [hrun]
    rw [State.setEngine_engine, hused.engine, hacc]
  have hrow (d : DevSet) (row : List Pixel) (lines : List (Nat × List Byte × BitVec 64)) (hk : j.kind = .develop) (hd : j.set = some d)
      (hformed : RowOf s p d s.engine.run.nextLine (s.engine.run.acc ++ data) row lines)
      (hmapped : ∀ l ∈ lines, (s.previewEntry j.window (l.1 / Config.granule)).isSome = true) (hwork : s.port.work = [])
      (hroom : s.port.writes.length + lines.length ≤ 32) : ∃ u, RowReplayed s u j.window lines ∧
        LineUsed s u { run with acc := [], hist := row.foldl countPixel s.engine.run.hist, clip := row.foldl countClip s.engine.run.clip } ∧
        exec .replayLineReturned s = .next (afterLine u) := by
    have hacc : (lineTaken t data).engine.run.acc = s.engine.run.acc := htacc
    have htones : (lineTaken t data).engine.tones = s.engine.tones := returnedLine_field ht fun u => u.engine.tones
    have hdevelop := developLine_row (w := j.window) (s := lineTaken t data) (data := data) (row := row) (lines := lines)
      (by rw [hacc]; exact hformed.since htones)
    have hentry (g : Nat) : (rowCounted (lineTaken t data) row).previewEntry j.window g = s.previewEntry j.window g :=
      returnedLine_field ht fun u => u.previewEntry j.window g
    have hwrites : (rowCounted (lineTaken t data) row).port.writes = s.port.writes := returnedLine_field ht fun u => u.port.writes
    obtain ⟨u, hu⟩ := rowInserted (s := rowCounted (lineTaken t data) row) (w := j.window) (ls := lines)
      (fun l hl => by rw [hentry]; exact hmapped l hl) ((returnedLine_field ht fun u => u.port.work).trans hwork)
      (by rw [hwrites]; exact hroom)
    have hline := useReplayLine_develop data htp htstill hk hd
    rw [htline, hdevelop, hu.written, Option.map_some] at hline
    have hexec := exec_replayLineReturned ha hq hw ht hline
    rw [finishLine_goes (previewWaits_idle (hu.inserted.work.trans ((returnedLine_field ht fun u => u.port.work).trans hwork)))] at hexec
    have hrun' : run.hist = s.engine.run.hist ∧ run.clip = s.engine.run.clip := by rw [hrun]; exact ⟨rfl, rfl⟩
    refine ⟨u, ?_, ?_, hexec⟩
    · have haddr : previewAddr (rowCounted (lineTaken t data) row) j.window = previewAddr s j.window :=
        funext fun o => previewAddr_congr hused.maps j.window o
      obtain ⟨hmem, htriples, -⟩ := hu.inserted
      rw [haddr] at hmem htriples
      rw [hwrites] at htriples
      have hmem' : (rowCounted (lineTaken t data) row).mem = s.mem := htmem
      rw [hmem'] at hmem
      exact ⟨hmem, htriples⟩
    · rw [← hrun'.1, ← hrun'.2]
      exact hused.row hu
  refine ⟨fun hk hlast => ⟨fun hgo => ?_, fun v hb hs hi hdev => ?_⟩, fun d hk hd hscale hlast => ⟨fun hpart => ?_,
    fun row lines formed hformed hmapped hwork hroom hrunning => ⟨fun hs => ?_, fun v hs hi hdev => ?_⟩⟩,
    fun hlast hrest hinline htether => ⟨fun hk x hx hkept => ?_, fun d row lines hk hd hformed hmapped hwork hroom hkept => ?_⟩⟩
  · obtain ⟨hasked, hshots, hmaps, hpool, hmem, -⟩ := hused.goes ha hq hp hstop hlast hgo
    exact ⟨_, hcheck hk, hasked, hshots, hmaps, hpool, hmem.trans htmem⟩
  · obtain ⟨hsuspended, hmaps, hpool, -⟩ := hused.suspends ha hq hp hstop hlast hb hs hi hdev
    exact ⟨_, hcheck hk, hsuspended, hmaps, hpool⟩
  · rw [hline] at hpart
    obtain ⟨u, humem, hu, hexec⟩ := hpartial d hk hd hpart
    obtain ⟨hasked, hshots, hmaps, hpool, hmem, -⟩ := hu.goes ha hq hp hstop hlast
      (.inl (by rw [boundaryAt_develop hk hscale]; exact decide_eq_false (by rw [hline]; exact hpart)))
    exact ⟨_, hexec, hasked, hshots, hmaps, hpool, hmem.trans humem⟩
  · obtain ⟨u, hreplayed, hu, hexec⟩ := hrow d row lines hk hd hformed hmapped hwork hroom
    rw [← hrunning] at hu
    have hnext : formed.nextLine = run.nextLine := by rw [hrunning]
    obtain ⟨hasked, hshots, hmaps, hpool, hmem, hwrites⟩ := hu.goes ha hq hp hstop (by rw [hnext]; exact hlast) (.inr hs)
    exact ⟨_, hexec, hasked, hshots, hmaps, hpool, hmem.trans hreplayed.mem, by rw [hwrites]; exact hreplayed.entered⟩
  · obtain ⟨u, hreplayed, hu, hexec⟩ := hrow d row lines hk hd hformed hmapped hwork hroom
    rw [← hrunning] at hu
    have hnext : formed.nextLine = run.nextLine := by rw [hrunning]
    have hboundary : boundaryAt p j formed.nextLine = true := by
      rw [boundaryAt_develop hk hscale, hnext, hline]
      exact decide_eq_true hformed.ends
    obtain ⟨hsuspended, hmaps, hpool, hgrow⟩ := hu.suspends ha hq hp hstop (by rw [hnext]; exact hlast) hboundary hs hi hdev
    exact ⟨_, hexec, hsuspended, hmaps, hpool, hreplayed.prefixed hgrow⟩
  · have hend : ({ jobShot (s.shot j.window) j run with reservation := 0 } : Shot) = x := by
      simp only [jobShot, hk, hx, settledShot, crcGiven, hrun]
      cases s.engine.run.crc <;> rfl
    have hkept' : (jobShot (s.shot j.window) j run).releasable = false := by
      rw [← hkept, ← hend]
      rfl
    have hover := hused.ends ha (hrest ▸ hq) hp hstop (hline.trans hlast) hinline hkept' htether
    exact ⟨_, hcheck hk, hover.shot.trans hend, hover.others, hover.maps, hover.free, hover.engine⟩
  · obtain ⟨u, -, hu, hexec⟩ := hrow d row lines hk hd hformed hmapped hwork hroom
    have hkept' (r : Running) : (jobShot (s.shot j.window) j r).releasable = false := by
      rw [← hkept]
      simp only [jobShot, hk]
      rfl
    have hover := hu.ends ha (hrest ▸ hq) hp hstop (hline.trans hlast) hinline (hkept' _) htether
    refine ⟨_, hexec, hover.shot.trans ?_, hover.others, hover.maps, hover.free, hover.engine⟩
    simp only [jobShot, hk, doneShot, crcGiven, hrun]
    cases s.engine.run.crc <;> rfl
end

section
/-! PROOFS. The shot taps: what a line of a readout does to its context, the tap FIFO and the shot's record. -/

namespace Sys2Proof.Machine

set_option Elab.async false

/-! ### The contexts (R61) -/

theorem contextOf_congr {s t : State} (h : t.taps.contexts = s.taps.contexts) (w : Fin 64) : contextOf t w = contextOf s w := by
  rw [contextOf, h, contextOf]

theorem contextOf_modContext (s : State) (w : Fin 64) {f : TapContext → TapContext} (hf : ∀ c, (f c).window = c.window) :
    contextOf (modContext s w f) w = (contextOf s w).map f := by
  have hwindow (c : TapContext) : (if c.window = w then f c else c).window = c.window := by
    split
    · exact hf c
    · rfl
  have hsame : (fun o : Option TapContext => decide (o.map TapContext.window = some w)) ∘
      (fun o : Option TapContext => o.map fun c => if c.window = w then f c else c) =
        fun o : Option TapContext => decide (o.map TapContext.window = some w) := by
    funext o
    cases o with
    | none => rfl
    | some c => simp [hwindow]
  unfold contextOf modContext State.mapContexts
  rw [Vector.toList_map, List.find?_map, hsame]
  cases hfind : s.taps.contexts.toList.find? fun o => decide (o.map TapContext.window = some w) with
  | none => rfl
  | some o =>
    have ho : o.map TapContext.window = some w := by simpa using List.find?_some hfind
    cases o with
    | none => exact absurd ho (by simp)
    | some c => exact congrArg some (if_pos (Option.some.inj ho))

/-- The context of window w, as s has left it, is c; no other has changed. -/
structure ContextBecame (s t : State) (w : Fin 64) (c : TapContext) : Prop where
  context : contextOf t w = some c
  others : OtherContextsKept s t w

theorem ContextBecame.refl {s : State} {w : Fin 64} {c : TapContext} (h : contextOf s w = some c) : ContextBecame s s w c :=
  ⟨h, fun _ _ => rfl⟩

theorem ContextBecame.of_contexts {s t u : State} {w : Fin 64} {c : TapContext} (h : ContextBecame s t w c)
    (k : u.taps.contexts = t.taps.contexts) : ContextBecame s u w c :=
  ⟨(contextOf_congr k w).trans h.context, fun i hi => by rw [k]; exact h.others i hi⟩

theorem ContextBecame.since {r s t : State} {w : Fin 64} {c : TapContext} (h : ContextBecame s t w c)
    (k : s.taps.contexts = r.taps.contexts) : ContextBecame r t w c :=
  ⟨h.context, fun i hi => by rw [← k]; exact h.others i fun d hd => hi d (by rw [← k]; exact hd)⟩

theorem modContext_other {s : State} {w : Fin 64} (f : TapContext → TapContext) {i : Fin 2}
    (h : ∀ c, s.taps.contexts.get i = some c → c.window ≠ w) : (modContext s w f).taps.contexts.get i = s.taps.contexts.get i := by
  have hget : (modContext s w f).taps.contexts.get i =
      (s.taps.contexts.get i).map fun c => if c.window = w then f c else c := by
    simp [modContext, State.mapContexts, Vector.get_eq_getElem]
  rw [hget]
  cases hc : s.taps.contexts.get i with
  | none => rfl
  | some c => exact congrArg some (if_neg (h c hc))

theorem ContextBecame.mod {s t : State} {w : Fin 64} {c : TapContext} (h : ContextBecame s t w c) {f : TapContext → TapContext}
    (hf : ∀ d, (f d).window = d.window) : ContextBecame s (modContext t w f) w (f c) where
  context := by rw [contextOf_modContext t w hf, h.context]; rfl
  others i hi := by
    have hkept := h.others i hi
    rw [modContext_other f (by rw [hkept]; exact hi), hkept]

/-! ### A line in order (R62, R66, R67, R82) -/

/-- A tap that has moved on to context c, with q in the tap FIFO, and done nothing else. -/
structure TapAdvanced (s t : State) (w : Fin 64) (c : TapContext) (q : List FifoEntry) : Prop where
  became : ContextBecame s t w c
  fifo : t.taps.fifo = q
  blocks : { t with taps := s.taps } = s

theorem TapAdvanced.mod {s t : State} {w : Fin 64} {c : TapContext} {q : List FifoEntry} (h : TapAdvanced s t w c q)
    {f : TapContext → TapContext} (hf : ∀ d, (f d).window = d.window) : TapAdvanced s (modContext t w f) w (f c) q :=
  ⟨h.became.mod hf, h.fifo, h.blocks⟩

/-- R62: the context at the line, before its still accumulation. -/
def contextMoved (c : TapContext) (l : Nat) (data : List Byte) : TapContext := { c with next := l + 1, crc := crcBytes c.crc data }

theorem contextAfter_plain {p : Profile} {c : TapContext} {l : Nat} (data : List Byte)
    (h : ∀ z a, c.range = some z → c.still = some a → stillLine p z.val l = false) :
    contextAfter p c l data = contextMoved c l data := by
  unfold contextAfter contextMoved
  cases hr : c.range with
  | none => rfl
  | some z =>
    cases hs : c.still with
    | none => rfl
    | some a => simp only [h z a hr hs, Bool.false_eq_true, if_false]

theorem contextAfter_still {p : Profile} {c : TapContext} {l : Nat} {z : Fin 63} {a : StillAcc} (data : List Byte)
    (hr : c.range = some z) (hs : c.still = some a) (h : stillLine p z.val l = true) :
    contextAfter p c l data = { contextMoved c l data with still := some (addStillLine p l data a) } := by
  simp only [contextAfter, contextMoved, hr, hs, h, if_true]

theorem tapStill_skips {s : State} {w : Fin 64} {p : Profile} {c : TapContext} {l : Nat} (data : List Byte)
    (h : ∀ z a, c.range = some z → c.still = some a → stillLine p z.val l = false) : tapStill s w p c l data = s := by
  unfold tapStill
  cases hr : c.range with
  | none => rfl
  | some z =>
    cases hs : c.still with
    | none => rfl
    | some a => simp only [h z a hr hs, Bool.false_eq_true, if_false]

theorem tapStill_adds {s : State} {w : Fin 64} {p : Profile} {c : TapContext} {l : Nat} {z : Fin 63} {a : StillAcc} (data : List Byte)
    (hr : c.range = some z) (hs : c.still = some a) (h : stillLine p z.val l = true) (hl : lastStillLine p z.val ≠ some l) :
    tapStill s w p c l data = modContext s w fun c => { c with still := some (addStillLine p l data a) } := by
  simp only [tapStill, hr, hs, h, if_true, if_neg hl]

theorem tapStill_measures {s : State} {w : Fin 64} {p : Profile} {c : TapContext} {l : Nat} {z : Fin 63} {a : StillAcc}
    (data : List Byte) (hr : c.range = some z) (hs : c.still = some a) (h : stillLine p z.val l = true)
    (hl : lastStillLine p z.val = some l) : tapStill s w p c l data =
      measureStill (modContext s w fun c => { c with still := none }) w p (addStillLine p l data a) .inline := by
  simp only [tapStill, hr, hs, h, if_true, hl]

theorem tapStill_advanced {s : State} {w : Fin 64} {p : Profile} {c : TapContext} {l : Nat} {q : List FifoEntry} {t : State}
    (data : List Byte) (h : TapAdvanced s t w (contextMoved c l data) q) (hno : ¬endsStillRange p c l) :
    TapAdvanced s (tapStill t w p c l data) w (contextAfter p c l data) q := by
  by_cases hin : ∃ z a, c.range = some z ∧ c.still = some a ∧ stillLine p z.val l = true
  · obtain ⟨z, a, hr, hs, hl⟩ := hin
    rw [tapStill_adds data hr hs hl fun hlast => hno ⟨z, a, hr, hs, hl, hlast⟩, contextAfter_still data hr hs hl]
    exact h.mod fun _ => rfl
  · have hout (z : Fin 63) (a : StillAcc) (hr : c.range = some z) (hs : c.still = some a) : stillLine p z.val l = false :=
      Bool.eq_false_iff.mpr fun hl => hin ⟨z, a, hr, hs, hl⟩
    rw [tapStill_skips data hout, contextAfter_plain data hout]
    exact h

theorem tapFeed_room {s : State} (w : Fin 64) (l : Nat) (data : List Byte) (h : s.taps.fifo.length < 128) : tapFeed s w l data =
    { s with taps := { s.taps with fifo := s.taps.fifo ++ [{ window := w, line := l, data := data }] } } := if_pos h

/-- R62: the next line in full leaves its slot in the context and, fed, in the FIFO. -/
theorem tapInOrder_advanced {s : State} {w : Fin 64} {c : TapContext} {l : Nat} (p : Profile) (data : List Byte)
    (hc : contextOf s w = some c) (hno : ¬endsStillRange p c l) (hroom : c.inlineFeed = true → s.taps.fifo.length < 128) :
    TapAdvanced s (tapInOrder s w p c l data) w (contextAfter p c l data)
      (if c.inlineFeed then s.taps.fifo ++ [{ window := w, line := l, data := data }] else s.taps.fifo) := by
  have hmoved : TapAdvanced s (modContext s w fun c => { c with next := l + 1, crc := crcBytes c.crc data }) w
      (contextMoved c l data) s.taps.fifo := TapAdvanced.mod ⟨.refl hc, rfl, rfl⟩ fun _ => rfl
  have hstill := tapStill_advanced data hmoved hno
  simp only [tapInOrder]
  generalize tapStill (modContext s w fun c => { c with next := l + 1, crc := crcBytes c.crc data }) w p c l data = t at hstill ⊢
  split
  · next hfeed =>
    rw [tapFeed_room w l data (by rw [hstill.fifo]; exact hroom hfeed)]
    exact ⟨hstill.became.of_contexts rfl, by rw [hstill.fifo], hstill.blocks⟩
  · exact hstill

theorem tapReceive_following {s : State} {w : Fin 64} {c : TapContext} {p : Profile} (l : Nat) (full : Bool) (data : List Byte)
    (hc : contextOf s w = some c) (hp : (s.shot w).profile = some p) (hf : c.following = true) : tapReceive s w l full data =
      if (full && decide (l = c.next)) = true then tapInOrder s w p c l data else tapDisorder s w c l full := by
  simp only [tapReceive, hc, hp, hf, if_true]

theorem tapReceive_ignored {s : State} {w : Fin 64} {c : TapContext} {p : Profile} (l : Nat) (full : Bool) (data : List Byte)
    (hc : contextOf s w = some c) (hp : (s.shot w).profile = some p) (hf : c.following = false) : tapReceive s w l full data = s := by
  simp only [tapReceive, hc, hp, hf, Bool.false_eq_true, if_false]

/-! ### The still check of a readout (R96, R97) -/

theorem recordCheck_capturing {s : State} {w : Fin 64} (h : (s.shot w).state = .capturing) (zone : Nat) (check : FocusCheck) (steps : Int)
    (origin : Origin) : recordCheck s w zone check steps origin =
      hand (mirror (s.modShot w fun x => { x with focusCheck := some check }) w [2])
        (shotNotice (s.modShot w fun x => { x with focusCheck := some check }) w .focusCheck zone
          (byte1 check.state.code ++ signedBytes check.q ++ byte1 check.conf ++ signedBytes steps ++ byte1 origin.code)) := by
  have hreports := mirror_reported (s.modShot w fun x => { x with focusCheck := some check }) w [2]
  have hnotice (d : List Byte) : shotNotice (mirror (s.modShot w fun x => { x with focusCheck := some check }) w [2]) w .focusCheck zone d =
      shotNotice (s.modShot w fun x => { x with focusCheck := some check }) w .focusCheck zone d := by
    simp only [shotNotice, mirror_shot]
  simp only [recordCheck, hnotice]
  generalize hu : hand (mirror (s.modShot w fun x => { x with focusCheck := some check }) w [2]) _ = u
  have hstate : (u.shot w).state = .capturing := by
    rw [← hu, hand_shot, mirror_shot]
    exact (congrArg Shot.state (State.shot_setShot_same s w _)).trans h
  rw [evaluateUndecided_waits fun ⟨hs, _⟩ => by rw [hstate] at hs; exact ShotState.noConfusion hs,
    releaseCheck_kept fun hs => by rw [hstate] at hs; exact ShotState.noConfusion hs]

theorem measureStill_setup {s : State} {f : FocusSetup} (w : Fin 64) (p : Profile) (a : StillAcc) (origin : Origin)
    (h : s.focus.setup = some f) : measureStill s w p a origin =
      recordCheck s w a.zone.val
        { state := checkStateOf f (Machine.measure a.sums f.search f.cmin p.kz)
          q := (Machine.measure a.sums f.search f.cmin p.kz).q
          conf := (Machine.measure a.sums f.search f.cmin p.kz).conf }
        (Machine.measure a.sums f.search f.cmin p.kz).steps origin := by
  simp only [measureStill, h]

/-! ### Work that is put off (R63, R68, R131) -/

/-- The shot in window w has become x and the replay queue q, and nothing else has changed but what is reported of them. -/
structure Retasked (s t : State) (w : Fin 64) (x : Shot) (q : List Job) : Prop where
  shot : t.shot w = x
  others : ∀ v, v ≠ w → t.shot v = s.shot v
  maps : t.maps = s.maps
  pool : t.pool = s.pool
  taps : t.taps = s.taps
  engine : t.engine = { s.engine with queue := q }
  reads : t.port.reads = s.port.reads
  held : t.port.heldReads = s.port.heldReads
  rules : t.tether.rules = s.tether.rules
  entries : (∀ e ∈ s.tether.queue, e.window ≠ w) → t.tether.queue = s.tether.queue
  now : t.now = s.now

theorem Retasked.refl (s : State) (w : Fin 64) : Retasked s s w (s.shot w) s.engine.queue :=
  ⟨rfl, fun _ _ => rfl, rfl, rfl, rfl, rfl, rfl, rfl, rfl, fun _ => rfl, rfl⟩

theorem Retasked.of_reported {s t u : State} {w : Fin 64} {x : Shot} {q : List Job} (h : Retasked s t w x q) (k : Reported t u) :
    Retasked s u w x q where
  shot := (k.field fun v => v.shot w).trans h.shot
  others v hv := (k.field fun u => u.shot v).trans (h.others v hv)
  maps := (k.field State.maps).trans h.maps
  pool := (k.field State.pool).trans h.pool
  taps := (k.field State.taps).trans h.taps
  engine := (k.field State.engine).trans h.engine
  reads := (k.portField MemoryPort.reads).trans h.reads
  held := (k.portField MemoryPort.heldReads).trans h.held
  rules := (k.field fun u => u.tether.rules).trans h.rules
  entries hno := (k.field fun u => u.tether.queue).trans (h.entries hno)
  now := (k.field State.now).trans h.now

theorem Retasked.record {s t : State} {w : Fin 64} {x : Shot} {q : List Job} (h : Retasked s t w x q) (y : Shot) :
    Retasked s (t.setShot w y) w y q :=
  ⟨State.shot_setShot_same _ _ _, fun v hv => (State.shot_setShot_other _ _ _ _ hv).trans (h.others v hv), h.maps, h.pool, h.taps, h.engine,
    h.reads, h.held, h.rules, h.entries, h.now⟩

theorem Retasked.readyMarked {s t : State} {w : Fin 64} {x : Shot} {q : List Job} (h : Retasked s t w x q) :
    Retasked s (readyMarked t w) w x q where
  shot := h.shot
  others := h.others
  maps := h.maps
  pool := h.pool
  taps := h.taps
  engine := h.engine
  reads := h.reads
  held := h.held
  rules := h.rules
  entries hno := by
    have hqueue := h.entries hno
    refine Eq.trans (List.map_congr_left fun e he => ?_) ((List.map_id _).trans hqueue)
    exact if_neg (hno e (by rw [← hqueue]; exact he))
  now := h.now

theorem Retasked.requeue {s t : State} {w : Fin 64} {x : Shot} {q : List Job} (h : Retasked s t w x q) (r : List Job) :
    Retasked s (t.setEngine { t.engine with queue := r }) w x r :=
  ⟨h.shot, h.others, h.maps, h.pool, h.taps, by rw [State.setEngine_engine, h.engine], h.reads, h.held, h.rules, h.entries, h.now⟩

theorem Retasked.congr {s t : State} {w : Fin 64} {x y : Shot} {q : List Job} (h : Retasked s t w x q) (hx : x = y) :
    Retasked s t w y q := hx ▸ h

theorem Retasked.trans {s t u : State} {w : Fin 64} {x y : Shot} {q r : List Job} (h : Retasked s t w x q) (k : Retasked t u w y r) :
    Retasked s u w y r :=
  ⟨k.shot, fun v hv => (k.others v hv).trans (h.others v hv), k.maps.trans h.maps, k.pool.trans h.pool, k.taps.trans h.taps,
    by rw [k.engine, h.engine], k.reads.trans h.reads, k.held.trans h.held, k.rules.trans h.rules,
    fun hno => (k.entries (by rw [h.entries hno]; exact hno)).trans (h.entries hno), k.now.trans h.now⟩

theorem Retasked.changeDev {s t : State} {w : Fin 64} {x : Shot} {q : List Job} (h : Retasked s t w x q) (f : Shot → Shot) :
    Retasked s (changeDev t w f) w (f x) q :=
  ((h.record (f (t.shot w))).of_reported (changeDev_reported t w f)).congr (by rw [h.shot])

theorem Retasked.refreshReady {s t : State} {w : Fin 64} {x : Shot} {q : List Job} (h : Retasked s t w x q) :
    Retasked s (refreshReady t w) w x q := h.readyMarked.of_reported (refreshReady_reported t w)

/-- R131: the job of kind k that the shot x in window w is offered with. -/
def offeredJob (w : Fin 64) (x : Shot) (k : JobKind) : Job :=
  { window := w, seq := x.seq, kind := k, set := x.devSet, nextRow := 0, begun := false, saved := none }

theorem offerJob_retasked {s : State} (w : Fin 64) (k : JobKind) (h : s.engine.queue.length < 16) :
    Retasked s (offerJob s w k).1 w (s.shot w) (s.engine.queue ++ [offeredJob w (s.shot w) k]) := by
  rw [offerJob_room w k h]
  exact ((Retasked.refl s w).requeue (s.engine.queue ++ [offeredJob w (s.shot w) k])).of_reported (publish_reported _ 5)

/-- R136: the record of a shot whose development has failed. -/
def failedShot (x : Shot) (r : Option DevReason) : Shot :=
  { x with dev := .failed, reason := r, checkOnly := false, hist := zeroHist, clip := ⟨0, 0, 0⟩ }

theorem setFailed_reported (s : State) (w : Fin 64) (r : Option DevReason) :
    Reported (s.setShot w (failedShot (s.shot w) r)) (setFailed s w r) := by
  unfold setFailed
  generalize ([3, 6] ++ histLines : List (Fin 64)) = lines
  exact mirror_reported (s.setShot w (failedShot (s.shot w) r)) w lines

theorem failDev_retasked (s : State) (w : Fin 64) (r : DevReason) :
    Retasked s (failDev s w r) w (failedShot (s.shot w) (some r)) s.engine.queue :=
  (((Retasked.refl s w).record (failedShot (s.shot w) (some r))).of_reported (setFailed_reported s w (some r))).refreshReady

theorem putOff_room {s : State} (w : Fin 64) (r : DevReason) (h : s.engine.queue.length < 16) :
    Retasked s (putOff s w r).1 w { s.shot w with dev := .queued, reason := some r }
      (s.engine.queue ++ [offeredJob w (s.shot w) .develop]) ∧ (putOff s w r).2 = false := by
  have hoffered := offerJob_retasked w .develop h
  have hput : putOff s w r = (refreshReady (changeDev (offerJob s w .develop).1 w fun x => { x with dev := .queued, reason := some r }) w, false) := by
    simp only [putOff, offerJob_room w .develop h]
  rw [hput]
  exact ⟨(hoffered.changeDev _).refreshReady, rfl⟩

theorem putOff_full {s : State} (w : Fin 64) (r : DevReason) (h : 16 ≤ s.engine.queue.length) :
    Retasked s (putOff s w r).1 w (failedShot (s.shot w) (some .queueFull)) s.engine.queue ∧ (putOff s w r).2 = true := by
  have hfailed := failDev_retasked s w .queueFull
  have hput : putOff s w r = (failDev s w .queueFull, true) := by simp only [putOff, offerJob_full w .develop h]
  generalize failDev s w .queueFull = t at hfailed hput
  rw [hput]
  exact ⟨hfailed, rfl⟩

theorem offerCheck_unneeded {s : State} {w : Fin 64} (h : (s.shot w).crc ≠ none ∨ hasJob s w = true) : offerCheck s w = (s, false) := by
  refine if_pos ?_
  obtain h | h := h
  · rw [Option.isSome_iff_ne_none.mpr h, Bool.true_or]
  · rw [h, Bool.or_true]

theorem offerCheck_offers {s : State} {w : Fin 64} (hc : (s.shot w).crc = none) (hj : hasJob s w = false) : offerCheck s w =
    match offerJob s w .check with
    | (s, true) => (refreshReady (changeDev s w fun x => { x with dev := .queued, checkOnly := true }) w, false)
    | (s, false) => (s, true) := by
  refine if_neg ?_
  rw [hc, hj]
  exact Bool.false_ne_true

theorem offerCheck_room {s : State} {w : Fin 64} (hc : (s.shot w).crc = none) (hj : hasJob s w = false) (h : s.engine.queue.length < 16) :
    Retasked s (offerCheck s w).1 w { s.shot w with dev := .queued, checkOnly := true }
      (s.engine.queue ++ [offeredJob w (s.shot w) .check]) := by
  have hoffered := offerJob_retasked w .check h
  rw [offerJob_room w .check h] at hoffered
  have hcheck : (offerCheck s w).1 = refreshReady (changeDev (publish (jobJoined s w .check) 5) w
      fun x => { x with dev := .queued, checkOnly := true }) w := by
    rw [offerCheck_offers hc hj, offerJob_room w .check h]
  rw [hcheck]
  exact (hoffered.changeDev _).refreshReady

theorem offerCheck_full {s : State} {w : Fin 64} (hc : (s.shot w).crc = none) (hj : hasJob s w = false) (h : 16 ≤ s.engine.queue.length) :
    offerCheck s w = (s, true) := by
  rw [offerCheck_offers hc hj, offerJob_full w .check h]

theorem offerCheck_kept {s : State} {w : Fin 64} (h : (s.shot w).crc ≠ none ∨ hasJob s w = true ∨ 16 ≤ s.engine.queue.length) :
    (offerCheck s w).1 = s := by
  by_cases hc : (s.shot w).crc = none
  · cases hj : hasJob s w with
    | true => rw [offerCheck_unneeded (.inr hj)]
    | false =>
      rw [offerCheck_full hc hj ((h.resolve_left fun hne => hne hc).resolve_left (by rw [hj]; exact Bool.false_ne_true))]
  · rw [offerCheck_unneeded (.inl hc)]

theorem offerCheck_retasked (s : State) (w : Fin 64) : ∃ x q, Retasked s (offerCheck s w).1 w x q := by
  by_cases h : (s.shot w).crc ≠ none ∨ hasJob s w = true ∨ 16 ≤ s.engine.queue.length
  · rw [offerCheck_kept h]
    exact ⟨_, _, .refl s w⟩
  · simp only [not_or, not_not, Bool.not_eq_true, Nat.not_le] at h
    exact ⟨_, _, offerCheck_room h.1 h.2.1 h.2.2⟩

theorem putOff_retasked (s : State) (w : Fin 64) (r : DevReason) : ∃ x q, Retasked s (putOff s w r).1 w x q := by
  obtain h | h := Nat.lt_or_ge s.engine.queue.length 16
  · exact ⟨_, _, (putOff_room w r h).1⟩
  · exact ⟨_, _, (putOff_full w r h).1⟩

theorem jobsNotTaken_reported (s : State) (w : Fin 64) (d c : Bool) : Reported s (jobsNotTaken s w d c) := by
  have hfailed (u : State) (k : Option JobKind) : Reported u (developFailed u w .queueFull k) := shotNotice_reported _ _ _ _ _ _
  unfold jobsNotTaken
  cases d with
  | false => cases c with
    | false => exact .refl s
    | true => exact hfailed s _
  | true => cases c with
    | false => exact hfailed s _
    | true => exact (hfailed s _).trans (hfailed _ _)

/-! ### What the taps leave alone -/

/-- A record but for its readout: its development, its focus check and its tap status. -/
def readoutLeft (x : Shot) : Shot :=
  { x with
    dev := .none, reason := none, checkOnly := false, hist := zeroHist, clip := ⟨0, 0, 0⟩, tapStatus := .inOrder
    focusCheck := none }

/-- The frame of a tap's work: records but for their readout, maps, free queue, lens, the open counter and the clock are as in s. -/
structure TapKept (s t : State) : Prop where
  records : ∀ v, readoutLeft (t.shot v) = readoutLeft (s.shot v)
  maps : t.maps = s.maps
  free : t.pool.free = s.pool.free
  lens : t.lens = s.lens
  counter : t.table.seqCounter = s.table.seqCounter
  lastOpened : t.table.lastOpened = s.table.lastOpened
  now : t.now = s.now

theorem TapKept.refl (s : State) : TapKept s s := ⟨fun _ => rfl, rfl, rfl, rfl, rfl, rfl, rfl⟩

theorem TapKept.trans {s t u : State} (h : TapKept s t) (k : TapKept t u) : TapKept s u :=
  ⟨fun v => (k.records v).trans (h.records v), k.maps.trans h.maps, k.free.trans h.free, k.lens.trans h.lens,
    k.counter.trans h.counter, k.lastOpened.trans h.lastOpened, k.now.trans h.now⟩

theorem Reported.tapKept {s t : State} (h : Reported s t) : TapKept s t :=
  ⟨fun v => congrArg readoutLeft (h.field fun u => u.shot v), h.field State.maps, h.field fun u => u.pool.free, h.field State.lens,
    h.field fun u => u.table.seqCounter, h.field fun u => u.table.lastOpened, h.field State.now⟩

theorem TapKept.of_shots {s t : State} (shots : t.shots = s.shots := by rfl) (maps : t.maps = s.maps := by rfl)
    (free : t.pool.free = s.pool.free := by rfl) (lens : t.lens = s.lens := by rfl)
    (counter : t.table.seqCounter = s.table.seqCounter := by rfl) (lastOpened : t.table.lastOpened = s.table.lastOpened := by rfl)
    (now : t.now = s.now := by rfl) : TapKept s t :=
  ⟨fun v => congrArg (fun x => readoutLeft (Vector.get x v)) shots, maps, free, lens, counter, lastOpened, now⟩

theorem setShot_tapKept {s : State} {w : Fin 64} {x : Shot} (h : readoutLeft x = readoutLeft (s.shot w)) : TapKept s (s.setShot w x) where
  records v := by
    by_cases hv : v = w
    · rw [hv, State.shot_setShot_same]
      exact h
    · rw [State.shot_setShot_other _ _ _ _ hv]
  maps := rfl
  free := rfl
  lens := rfl
  counter := rfl
  lastOpened := rfl
  now := rfl

theorem TapKept.state {s t : State} (h : TapKept s t) (v : Fin 64) : (t.shot v).state = (s.shot v).state := by
  have e := congrArg Shot.state (h.records v)
  exact e

theorem refreshReady_tapKept (s : State) (w : Fin 64) : TapKept s (refreshReady s w) :=
  TapKept.trans (.of_shots (t := readyMarked s w)) (refreshReady_reported s w).tapKept

theorem changeDev_tapKept {s : State} {w : Fin 64} {f : Shot → Shot} (h : ∀ x, readoutLeft (f x) = readoutLeft x) :
    TapKept s (changeDev s w f) :=
  (setShot_tapKept (h (s.shot w))).trans (changeDev_reported s w f).tapKept

theorem failDev_tapKept (s : State) (w : Fin 64) (r : DevReason) : TapKept s (failDev s w r) :=
  ((setShot_tapKept (x := failedShot (s.shot w) (some r)) rfl).trans (setFailed_reported s w (some r)).tapKept).trans (refreshReady_tapKept _ w)

theorem offerJob_tapKept (s : State) (w : Fin 64) (k : JobKind) : TapKept s (offerJob s w k).1 := by
  obtain h | h := Nat.lt_or_ge s.engine.queue.length 16
  · rw [offerJob_room w k h]
    exact TapKept.trans (.of_shots (t := jobJoined s w k)) (publish_reported _ 5).tapKept
  · rw [offerJob_full w k h]
    exact .refl s

theorem putOff_tapKept (s : State) (w : Fin 64) (r : DevReason) : TapKept s (putOff s w r).1 := by
  have hoffer := offerJob_tapKept s w .develop
  unfold putOff
  generalize offerJob s w .develop = o at hoffer
  obtain ⟨t, taken⟩ := o
  have hqueued := changeDev_tapKept (s := t) (w := w) (f := fun x => { x with dev := .queued, reason := some r }) fun _ => rfl
  cases taken with
  | true =>
    simp only
    exact (hoffer.trans hqueued).trans (refreshReady_tapKept _ w)
  | false =>
    simp only
    exact hoffer.trans (failDev_tapKept t w .queueFull)

theorem offerCheck_tapKept (s : State) (w : Fin 64) : TapKept s (offerCheck s w).1 := by
  have hoffer := offerJob_tapKept s w .check
  unfold offerCheck
  generalize offerJob s w .check = o at hoffer
  obtain ⟨t, taken⟩ := o
  have hqueued := changeDev_tapKept (s := t) (w := w) (f := fun x => { x with dev := .queued, checkOnly := true }) fun _ => rfl
  split
  · exact .refl s
  · cases taken with
    | true =>
      simp only
      exact (hoffer.trans hqueued).trans (refreshReady_tapKept _ w)
    | false => exact hoffer

theorem abandonInline_tapKept (s : State) (w : Fin 64) : TapKept s (abandonInline s w) := by
  by_cases h : s.engine.activity = .inline w
  · have hdropped : abandonInline s w = engineIdle (dropPreviewWork
        { s with taps := { s.taps with fifo := s.taps.fifo.filter fun e => e.window ≠ w } }) := if_pos h
    have hkept : TapKept s (dropPreviewWork { s with taps := { s.taps with fifo := s.taps.fifo.filter fun e => e.window ≠ w } }) :=
      .of_shots
    rw [hdropped]
    generalize dropPreviewWork _ = t at hkept
    exact (hkept.trans (.of_shots (t := t.setEngine (idleEngine t.engine)))).trans (engineIdle_reported t).tapKept
  · rw [abandonInline_waiting h]
    exact .of_shots

theorem engineChoose_tapKept (s : State) : TapKept s (engineChoose s) where
  records v := by
    obtain h | ⟨-, h⟩ := engineChoose_shot s v
    · rw [h]
    · rw [h]; rfl
  maps := engineChoose_field s State.maps
  free := engineChoose_field s fun u => u.pool.free
  lens := engineChoose_field s State.lens
  counter := engineChoose_field s fun u => u.table.seqCounter
  lastOpened := engineChoose_field s fun u => u.table.lastOpened
  now := engineChoose_field s State.now

theorem recordCheck_tapKept {s : State} {w : Fin 64} (h : (s.shot w).state = .capturing) (zone : Nat) (check : FocusCheck) (steps : Int)
    (origin : Origin) : TapKept s (recordCheck s w zone check steps origin) := by
  have hset : TapKept s (s.modShot w fun x => { x with focusCheck := some check }) :=
    setShot_tapKept (x := { s.shot w with focusCheck := some check }) rfl
  rw [recordCheck_capturing h]
  generalize (s.modShot w fun x => { x with focusCheck := some check }) = t at hset
  exact (hset.trans (mirror_reported t w [2]).tapKept).trans (shotNotice_reported _ _ _ _ _ _).tapKept

theorem measureStill_tapKept {s : State} {w : Fin 64} (h : (s.shot w).state = .capturing) (p : Profile) (a : StillAcc) (origin : Origin) :
    TapKept s (measureStill s w p a origin) := by
  cases hf : s.focus.setup with
  | none =>
    simp only [measureStill, hf]
    exact .refl s
  | some f =>
    rw [measureStill_setup w p a origin hf]
    exact recordCheck_tapKept h _ _ _ _

theorem modContext_tapKept (s : State) (w : Fin 64) (f : TapContext → TapContext) : TapKept s (modContext s w f) := .of_shots

theorem modContext_state {s : State} {w : Fin 64} (h : (s.shot w).state = .capturing) (f : TapContext → TapContext) :
    ((modContext s w f).shot w).state = .capturing := h

theorem tapStill_tapKept {s : State} {w : Fin 64} (h : (s.shot w).state = .capturing) (p : Profile) (c : TapContext) (l : Nat)
    (data : List Byte) : TapKept s (tapStill s w p c l data) := by
  unfold tapStill
  split
  · split
    · split
      · exact TapKept.trans (modContext_tapKept s w _) (measureStill_tapKept (modContext_state h _) p _ _)
      · exact modContext_tapKept s w _
    · exact .refl s
  · exact .refl s

theorem tapFeed_tapKept (s : State) (w : Fin 64) (l : Nat) (data : List Byte) : TapKept s (tapFeed s w l data) := by
  unfold tapFeed
  split
  · exact .of_shots
  · exact ((((modContext_tapKept s w _).trans (abandonInline_tapKept _ w)).trans (putOff_tapKept _ w _)).trans
      (jobsNotTaken_reported _ w _ _).tapKept).trans (engineChoose_tapKept _)

theorem tapInOrder_tapKept {s : State} {w : Fin 64} (h : (s.shot w).state = .capturing) (p : Profile) (c : TapContext) (l : Nat)
    (data : List Byte) : TapKept s (tapInOrder s w p c l data) := by
  have hstill := (modContext_tapKept s w fun c => { c with next := l + 1, crc := crcBytes c.crc data }).trans
    (tapStill_tapKept (modContext_state h _) p c l data)
  unfold tapInOrder
  split
  · exact hstill.trans (tapFeed_tapKept _ w l data)
  · exact hstill

theorem tapDisorder_tapKept (s : State) (w : Fin 64) (c : TapContext) (l : Nat) (full : Bool) : TapKept s (tapDisorder s w c l full) := by
  have hput (t : State) (d : Bool) : TapKept t (if d then putOff (abandonInline t w) w .disorder else (t, false)).1 := by
    split
    · exact (abandonInline_tapKept t w).trans (putOff_tapKept _ w _)
    · exact .refl t
  have hmarked : TapKept s (changeDev (modContext s w fun c => { c with following := false, crc := crcInit, still := none, inlineFeed := false })
      w fun x => { x with tapStatus := .disordered }) := (modContext_tapKept s w _).trans (changeDev_tapKept fun _ => rfl)
  simp only [tapDisorder]
  exact ((((hmarked.trans (hput _ _)).trans (offerCheck_tapKept _ w)).trans (shotNotice_reported _ _ _ _ _ _).tapKept).trans
    (jobsNotTaken_reported _ w _ _).tapKept).trans (engineChoose_tapKept _)

/-- R61 to R68: a stored write of a CAPTURING shot changes no map and no pool, and of the records the readout alone. -/
theorem tapReceive_tapKept {s : State} {w : Fin 64} (h : (s.shot w).state = .capturing) (l : Nat) (full : Bool) (data : List Byte) :
    TapKept s (tapReceive s w l full data) := by
  unfold tapReceive
  split
  · split
    · split
      · exact tapInOrder_tapKept h _ _ l data
      · exact tapDisorder_tapKept s w _ l full
    · exact .refl s
  · exact .refl s

end Sys2Proof.Machine
end

section
/-! PROOFS. A line of a readout: its way to memory, and what it does at its shot's tap (O18). -/

namespace Sys2Proof.Machine

set_option Elab.async false

/-! ### A CAPTURE write of a CAPTURING shot (R4, R34, R50) -/

section
variable {s t : State} {r : Request} {rest : List Request} {data : List Byte} {mask : BitVec 64} {w : Fin 64} {o : Nat}

theorem shotWrite_capturing (c : SourceClass) (a : Nat) (data : List Byte) (mask : BitVec 64) (hstate : (s.shot w).state = .capturing)
    (hc : c = .capture) (ho : o < (s.shot w).rawLength) : shotWrite s c a w o data mask = captureWrite s w o data mask := by
  simp only [shotWrite, hstate, hc, ne_eq, not_true_eq_false, if_false, if_neg (Nat.not_le_of_lt ho)]

/-- R35: the final line seals the shot. -/
theorem exec_captureLine (htakes : TakesWrite s r rest data mask) (hspace : classify (lineAddr r) = .shot w o)
    (hclass : sourceClass r.tag = .capture) (hstate : (s.shot w).state = .capturing) (ho : o < (s.shot w).rawLength)
    (ht : captureStore (freeWriteSlot s rest) w o data mask = some t) :
    exec .takeWrite s = .next (if o + 64 = (t.shot w).rawLength then sealShot t w .finalLine else t) := by
  refine exec_takeWrite_some htakes ((writeTaken_shot _ data mask hspace).trans ?_)
  rw [shotWrite_capturing (s := freeWriteSlot s rest) _ _ data mask hstate hclass ho, captureWrite, ht]
  rfl

theorem captureStore_mapped {n : Nat} (hn : s.rawEntry w (o / Config.granule) = some n) : captureStore s w o data mask =
    some (tapReceive (restartTimer (enterPassWrite s (n * Config.granule + o % Config.granule) data mask) w) w (o / 64)
      (mask == fullMask) data) := by
  simp only [captureStore, hn, Option.isSome_some, if_true, Option.map_some, Option.getD_some]
  rfl

theorem captureStore_allocates {u : State} {n : Nat} (hs : s.rawEntry w (o / Config.granule) = none)
    (hu : allocateRaw s w (o / Config.granule) = some u) (hn : u.rawEntry w (o / Config.granule) = some n) :
    captureStore s w o data mask =
    some (tapReceive (restartTimer (enterPassWrite u (n * Config.granule + o % Config.granule) data mask) w) w (o / 64)
      (mask == fullMask) data) := by
  simp only [captureStore, hs, hu, hn, Option.isSome_none, Bool.false_eq_true, if_false, Option.map_some, Option.getD_some]
  rfl

theorem restartTimer_profile {p : Profile} (hp : (s.shot w).profile = some p) :
    restartTimer s w = s.setShot w { s.shot w with timer := captureTimer s.now p } := by
  simp only [restartTimer, State.modShot, hp, Option.map_some, Option.getD_some]

theorem lineStored_eq {p : Profile} (rest : List Request) (a : Nat) (data : List Byte) (mask : BitVec 64)
    (hp : (s.shot w).profile = some p) :
    restartTimer (enterPassWrite (freeWriteSlot s rest) a data mask) w = lineStored s rest w p a data mask := by
  rw [restartTimer_profile (s := enterPassWrite (freeWriteSlot s rest) a data mask) hp]
  rfl

end

/-! ### Readouts out of order (R63, R64) -/

section
variable {s : State} {w : Fin 64} {c : TapContext}

/-- R63: the context of a readout that is no longer followed. -/
def contextLost (c : TapContext) : TapContext := { c with following := false, crc := crcInit, still := none, inlineFeed := false }

/-- R63 steps 1 and 2: the context no longer follows, and the record says so. -/
def disorderMarked (s : State) (w : Fin 64) : State :=
  changeDev (modContext s w contextLost) w fun x => { x with tapStatus := .disordered }

/-- R63 step 3: the inline work of a disordered shot is put off. -/
def disorderPutOff (s : State) (w : Fin 64) : State × Bool :=
  if decide ((s.shot w).dev = .inline) then putOff (abandonInline s w) w .disorder else (s, false)

/-- R64: what TAP DISORDER says. -/
def disorderNotice (s : State) (w : Fin 64) (c : TapContext) (l : Nat) (full : Bool) : Notice :=
  shotNotice s w .tapDisorder 0 (leBytes 4 c.next ++ leBytes 4 l ++ byte1 (if full then 1 else 0) ++ byte1 (s.shot w).dev.code)

/-- A disordered shot with its work put off and its CRC provided for. -/
def disorderSettled (s : State) (w : Fin 64) : State := (offerCheck (disorderPutOff (disorderMarked s w) w).1 w).1

theorem tapDisorder_eq (s : State) (w : Fin 64) (c : TapContext) (l : Nat) (full : Bool) : ∃ d e, tapDisorder s w c l full =
    engineChoose (jobsNotTaken (hand (disorderSettled s w) (disorderNotice (disorderSettled s w) w c l full)) w d e) :=
  ⟨_, _, rfl⟩

theorem disorderMarked_retasked (s : State) (w : Fin 64) : Retasked (modContext s w contextLost) (disorderMarked s w) w
    { s.shot w with tapStatus := .disordered } s.engine.queue := (Retasked.refl (modContext s w contextLost) w).changeDev _

theorem hasJob_joined {t : State} {q : List Job} (k : JobKind) (x : Shot) (h : t.engine.queue = q ++ [offeredJob w x k]) :
    hasJob t w = true := by
  rw [hasJob, h]
  simp [offeredJob]

theorem Retasked.withdraw {t : State} {x : Shot} {q : List Job} (h : Retasked s t w x q) (v : Fin 64) :
    Retasked (inlineWithdrawn s v) (inlineWithdrawn t v) w x q where
  shot := h.shot
  others := h.others
  maps := h.maps
  pool := h.pool
  taps := by simp only [inlineWithdrawn, h.taps]
  engine := by simp only [inlineWithdrawn, h.engine]
  reads := h.reads
  held := h.held
  rules := h.rules
  entries := h.entries
  now := h.now

theorem Retasked.activity {t : State} {x : Shot} {q : List Job} (h : Retasked s t w x q) : t.engine.activity = s.engine.activity := by
  rw [h.engine]

theorem Retasked.queue {t : State} {x : Shot} {q : List Job} (h : Retasked s t w x q) : t.engine.queue = q := by
  rw [h.engine]

theorem disorderSettled_plain (h : (s.shot w).dev ≠ .inline) : disorderSettled s w = (offerCheck (disorderMarked s w) w).1 := by
  have hdev : ((disorderMarked s w).shot w).dev = (s.shot w).dev := by rw [(disorderMarked_retasked s w).shot]
  simp only [disorderSettled, disorderPutOff, hdev, decide_eq_true_eq, if_neg h]

theorem disorderSettled_inline (h : (s.shot w).dev = .inline) (ha : s.engine.activity = .replay) :
    disorderSettled s w = (offerCheck (putOff (inlineWithdrawn (disorderMarked s w) w) w .disorder).1 w).1 := by
  have hdev : ((disorderMarked s w).shot w).dev = (s.shot w).dev := by rw [(disorderMarked_retasked s w).shot]
  have hactivity : (disorderMarked s w).engine.activity ≠ .inline w := by
    rw [(disorderMarked_retasked s w).activity]
    exact fun e => Activity.noConfusion (ha.symm.trans e)
  simp only [disorderSettled, disorderPutOff, hdev, h, decide_true, if_true, abandonInline_waiting hactivity]

theorem disorderSettled_check (hdev : (s.shot w).dev ≠ .inline) (hcrc : (s.shot w).crc = none) (hjob : hasJob s w = false)
    (hroom : s.engine.queue.length < 16) : Retasked (modContext s w contextLost) (disorderSettled s w) w
      { s.shot w with tapStatus := .disordered, dev := .queued, checkOnly := true }
      (s.engine.queue ++ [offeredJob w (s.shot w) .check]) := by
  have hmarked := disorderMarked_retasked s w
  have hjob' : hasJob (disorderMarked s w) w = false := by rw [hasJob, hmarked.queue]; exact hjob
  have hcheck := offerCheck_room (s := disorderMarked s w) (w := w) (by rw [hmarked.shot]; exact hcrc) hjob'
    (by rw [hmarked.queue]; exact hroom)
  rw [disorderSettled_plain hdev]
  rw [hmarked.shot, hmarked.queue] at hcheck
  exact hmarked.trans hcheck

theorem disorderSettled_kept (hdev : (s.shot w).dev ≠ .inline)
    (h : (s.shot w).crc ≠ none ∨ hasJob s w = true ∨ 16 ≤ s.engine.queue.length) :
    Retasked (modContext s w contextLost) (disorderSettled s w) w { s.shot w with tapStatus := .disordered } s.engine.queue := by
  have hmarked := disorderMarked_retasked s w
  have hjob' : hasJob (disorderMarked s w) w = hasJob s w := by rw [hasJob, hmarked.queue, hasJob]
  rw [disorderSettled_plain hdev, offerCheck_kept (by rw [hmarked.shot, hmarked.queue, hjob']; exact h)]
  exact hmarked

theorem disorderSettled_putOff (hdev : (s.shot w).dev = .inline) (ha : s.engine.activity = .replay)
    (hroom : s.engine.queue.length < 16) : Retasked (inlineWithdrawn (modContext s w contextLost) w) (disorderSettled s w) w
      { s.shot w with tapStatus := .disordered, dev := .queued, reason := some .disorder }
      (s.engine.queue ++ [offeredJob w (s.shot w) .develop]) := by
  have hmarked := (disorderMarked_retasked s w).withdraw w
  rw [disorderSettled_inline hdev ha]
  generalize inlineWithdrawn (disorderMarked s w) w = t at hmarked
  obtain ⟨hput, -⟩ := putOff_room w .disorder (s := t) (by rw [hmarked.queue]; exact hroom)
  rw [hmarked.shot, hmarked.queue] at hput
  rw [offerCheck_unneeded (.inr (hasJob_joined .develop _ hput.queue))]
  exact hmarked.trans hput

theorem disorderSettled_full (hdev : (s.shot w).dev = .inline) (ha : s.engine.activity = .replay)
    (hfull : 16 ≤ s.engine.queue.length) : Retasked (inlineWithdrawn (modContext s w contextLost) w) (disorderSettled s w) w
      (failedShot { s.shot w with tapStatus := .disordered } (some .queueFull)) s.engine.queue := by
  have hmarked := (disorderMarked_retasked s w).withdraw w
  rw [disorderSettled_inline hdev ha]
  generalize inlineWithdrawn (disorderMarked s w) w = t at hmarked
  obtain ⟨hput, -⟩ := putOff_full w .disorder (s := t) (by rw [hmarked.queue]; exact hfull)
  rw [hmarked.shot, hmarked.queue] at hput
  rw [offerCheck_kept (.inr (.inr (by rw [hput.queue]; exact hfull)))]
  exact hmarked.trans hput

theorem contextLost_became (hc : contextOf s w = some c) : ContextBecame s (modContext s w contextLost) w (contextLost c) :=
  (ContextBecame.refl hc).mod fun _ => rfl

theorem disorderSettled_retasked (ha : s.engine.activity = .replay) : ∃ x q,
    Retasked (modContext s w contextLost) (disorderSettled s w) w x q ∨
      Retasked (inlineWithdrawn (modContext s w contextLost) w) (disorderSettled s w) w x q := by
  by_cases hdev : (s.shot w).dev = .inline
  · obtain h | h := Nat.lt_or_ge s.engine.queue.length 16
    · exact ⟨_, _, .inr (disorderSettled_putOff hdev ha h)⟩
    · exact ⟨_, _, .inr (disorderSettled_full hdev ha h)⟩
  · by_cases h : (s.shot w).crc ≠ none ∨ hasJob s w = true ∨ 16 ≤ s.engine.queue.length
    · exact ⟨_, _, .inl (disorderSettled_kept hdev h)⟩
    · simp only [not_or, not_not, Bool.not_eq_true, Nat.not_le] at h
      exact ⟨_, _, .inl (disorderSettled_check hdev h.1 h.2.1 h.2.2)⟩

theorem disorderSettled_became (hc : contextOf s w = some c) (ha : s.engine.activity = .replay) :
    ContextBecame s (disorderSettled s w) w (contextLost c) := by
  obtain ⟨x, q, h | h⟩ := disorderSettled_retasked (w := w) ha
  · exact (contextLost_became hc).of_contexts (by rw [h.taps])
  · exact (contextLost_became hc).of_contexts (by rw [h.taps]; rfl)

theorem disorderSettled_disordered (ha : s.engine.activity = .replay) : Disordered s (disorderSettled s w) w (s.shot w) := by
  have hframe : (∀ v, v ≠ w → (disorderSettled s w).shot v = s.shot v) ∧ (disorderSettled s w).maps = s.maps ∧
      (disorderSettled s w).pool = s.pool ∧ (disorderSettled s w).engine.activity = s.engine.activity := by
    obtain ⟨x, q, h | h⟩ := disorderSettled_retasked (w := w) ha
    · exact ⟨h.others, h.maps, h.pool, h.activity⟩
    · exact ⟨h.others, h.maps, h.pool, h.activity⟩
  obtain ⟨hothers, hmaps, hpool, hactivity⟩ := hframe
  refine ⟨fun hdev _ hroom => ?_, fun hdev _ hfull => ?_, fun hdev hcrc hjob hroom => ?_, fun hdev h => ?_, hothers, hmaps, hpool,
    hactivity⟩
  · have h := disorderSettled_putOff hdev ha hroom
    exact ⟨h.shot, by rw [h.taps]; rfl, h.queue⟩
  · have h := disorderSettled_full hdev ha hfull
    exact ⟨h.shot, h.queue⟩
  · have h := disorderSettled_check hdev hcrc hjob hroom
    exact ⟨h.shot, h.queue⟩
  · have h := disorderSettled_kept hdev h
    exact ⟨h.shot, h.queue⟩

theorem Disordered.shown {t u : State} {x : Shot} (h : Disordered s t w x) (k : Reported t u) : Disordered s u w x := by
  have hshot (v : Fin 64) : u.shot v = t.shot v := k.field fun r => r.shot v
  have hengine : u.engine = t.engine := k.field State.engine
  have htaps : u.taps = t.taps := k.field State.taps
  obtain ⟨hinline, hinlineFull, hcheck, hkept, hothers, hmaps, hpool, hrunning⟩ := h
  refine ⟨?_, ?_, ?_, ?_, fun v hv => (hshot v).trans (hothers v hv), (k.field State.maps).trans hmaps,
    (k.field State.pool).trans hpool, by rw [hengine]; exact hrunning⟩
  · rw [hshot, hengine, htaps]; exact hinline
  · rw [hshot, hengine]; exact hinlineFull
  · rw [hshot, hengine]; exact hcheck
  · rw [hshot, hengine]; exact hkept

theorem tapDisorder_reported (ha : s.engine.activity = .replay) (l : Nat) (full : Bool) :
    Reported (disorderSettled s w) (tapDisorder s w c l full) := by
  obtain ⟨d, e, h⟩ := tapDisorder_eq s w c l full
  have hreported : Reported (disorderSettled s w) (jobsNotTaken
      (hand (disorderSettled s w) (disorderNotice (disorderSettled s w) w c l full)) w d e) :=
    (shotNotice_reported _ _ _ _ _ _).trans (jobsNotTaken_reported _ w d e)
  have hactivity : (disorderSettled s w).engine.activity = .replay := (disorderSettled_disordered ha).running.trans ha
  rw [h]
  generalize jobsNotTaken _ w d e = t at hreported
  rw [engineChoose_busy (by rw [hreported.field State.engine, hactivity]; exact Activity.noConfusion)]
  exact hreported

/-- R63, R64 while the engine replays. -/
theorem tapDisorder_disordered (hc : contextOf s w = some c) (ha : s.engine.activity = .replay) (l : Nat) (full : Bool) :
    Disordered s (tapDisorder s w c l full) w (s.shot w) ∧ ContextBecame s (tapDisorder s w c l full) w (contextLost c) := by
  have hreported := tapDisorder_reported (w := w) (c := c) ha l full
  exact ⟨(disorderSettled_disordered ha).shown hreported,
    (disorderSettled_became hc ha).of_contexts (by rw [hreported.field State.taps])⟩

/-- R64: a disordered readout whose shot keeps its job is reported, and nothing more. -/
theorem tapDisorder_kept (hdev : (s.shot w).dev ≠ .inline) (hjob : hasJob s w = true) (ha : s.engine.activity = .replay) (l : Nat)
    (full : Bool) : tapDisorder s w c l full = hand (disorderMarked s w) (disorderNotice s w c l full) := by
  have hmarked := disorderMarked_retasked s w
  have hjob' : hasJob (disorderMarked s w) w = true := by rw [hasJob, hmarked.queue]; exact hjob
  have hoffer : offerCheck (disorderMarked s w) w = (disorderMarked s w, false) := offerCheck_unneeded (.inr hjob')
  have hput : disorderPutOff (disorderMarked s w) w = (disorderMarked s w, false) := by
    rw [disorderPutOff, hmarked.shot]
    exact if_neg (by simpa using hdev)
  have hnotice : disorderNotice (disorderMarked s w) w c l full = disorderNotice s w c l full := by
    simp only [disorderNotice, shotNotice, hmarked.shot]
  have hdisorder : tapDisorder s w c l full = engineChoose (hand (disorderMarked s w) (disorderNotice (disorderMarked s w) w c l full)) := by
    have h : tapDisorder s w c l full = engineChoose (jobsNotTaken
        (hand (offerCheck (disorderPutOff (disorderMarked s w) w).1 w).1
          (disorderNotice (offerCheck (disorderPutOff (disorderMarked s w) w).1 w).1 w c l full)) w
        (disorderPutOff (disorderMarked s w) w).2 (offerCheck (disorderPutOff (disorderMarked s w) w).1 w).2) := rfl
    rw [h, hput, hoffer]
    rfl
  rw [hdisorder, hnotice, engineChoose_busy]
  rw [hand_engine, hmarked.activity]
  exact fun e => Activity.noConfusion (ha.symm.trans e)

theorem disorderMarked_linesIn (s : State) (w : Fin 64) : LinesIn 1 s (disorderMarked s w) :=
  LinesIn.trans (n := 1) (k := 0) (t := (modContext s w contextLost).modShot w fun x => { x with tapStatus := .disordered }) .of_ports
    (mirror_linesIn _ w [3])

end

/-! ### A line in order at the still check and at a full FIFO (R66 to R68, R97) -/

section
variable {s : State} {w : Fin 64} {c : TapContext} {p : Profile} {l : Nat} {data : List Byte}

theorem tapInOrder_fed (hc : contextOf s w = some c) (hno : ¬endsStillRange p c l) (hfeed : c.inlineFeed = true) :
    ∃ t, TapAdvanced s t w (contextAfter p c l data) s.taps.fifo ∧ tapInOrder s w p c l data = tapFeed t w l data := by
  have hmoved : TapAdvanced s (modContext s w fun c => { c with next := l + 1, crc := crcBytes c.crc data }) w
      (contextMoved c l data) s.taps.fifo := TapAdvanced.mod ⟨.refl hc, rfl, rfl⟩ fun _ => rfl
  exact ⟨_, tapStill_advanced data hmoved hno, by simp only [tapInOrder, hfeed, if_true]⟩

/-- The tap feed of window w is given up. -/
def feedLost (c : TapContext) : TapContext := { c with inlineFeed := false }

/-- R68: a full FIFO puts the inline work off. -/
theorem tapFeed_full (hfull : 128 ≤ s.taps.fifo.length) (ha : s.engine.activity = .replay) :
    Reported (putOff (inlineWithdrawn (modContext s w feedLost) w) w .overflow).1 (tapFeed s w l data) := by
  have hactivity : (modContext s w feedLost).engine.activity ≠ .inline w := fun e => Activity.noConfusion (ha.symm.trans e)
  obtain ⟨x, q, hput⟩ := putOff_retasked (inlineWithdrawn (modContext s w feedLost) w) w .overflow
  have hfeed : tapFeed s w l data = engineChoose (jobsNotTaken (putOff (inlineWithdrawn (modContext s w feedLost) w) w .overflow).1 w
      (putOff (inlineWithdrawn (modContext s w feedLost) w) w .overflow).2 false) := by
    rw [← abandonInline_waiting hactivity]
    exact if_neg (Nat.not_lt_of_le hfull)
  have hnotices := jobsNotTaken_reported (putOff (inlineWithdrawn (modContext s w feedLost) w) w .overflow).1 w
    (putOff (inlineWithdrawn (modContext s w feedLost) w) w .overflow).2 false
  rw [hfeed]
  generalize jobsNotTaken _ w _ false = t at hnotices
  rw [engineChoose_busy (by rw [hnotices.field State.engine, hput.activity]; exact fun e => Activity.noConfusion (ha.symm.trans e))]
  exact hnotices

/-- R68: what a line that finds the FIFO full leaves. -/
structure Overflowed (s t : State) (w : Fin 64) (c : TapContext) : Prop where
  context : contextOf t w = some (feedLost c)
  fifo : t.taps.fifo = s.taps.fifo.filter fun e => e.window ≠ w
  others : ∀ v, v ≠ w → t.shot v = s.shot v
  maps : t.maps = s.maps
  pool : t.pool = s.pool
  suspend : t.engine.suspend = false
  room : s.engine.queue.length < 16 → t.shot w = { s.shot w with dev := .queued, reason := some .overflow } ∧
    t.engine.queue = s.engine.queue ++ [offeredJob w (s.shot w) .develop]
  full : 16 ≤ s.engine.queue.length → t.shot w = failedShot (s.shot w) (some .queueFull) ∧ t.engine.queue = s.engine.queue

theorem Retasked.overflowed {t u : State} {x : Shot} {q : List Job} (h : Retasked (inlineWithdrawn (modContext s w feedLost) w) t w x q)
    (k : Reported t u) (hc : contextOf s w = some c) (hroom : s.engine.queue.length < 16 →
      x = { s.shot w with dev := .queued, reason := some .overflow } ∧ q = s.engine.queue ++ [offeredJob w (s.shot w) .develop])
    (hfull : 16 ≤ s.engine.queue.length → x = failedShot (s.shot w) (some .queueFull) ∧ q = s.engine.queue) : Overflowed s u w c := by
  have hu := h.of_reported k
  refine ⟨?_, by rw [hu.taps]; rfl, hu.others, hu.maps, hu.pool, by rw [hu.engine]; rfl, fun hr => ?_, fun hf => ?_⟩
  · have hlost : ContextBecame s (modContext s w feedLost) w (feedLost c) := (ContextBecame.refl hc).mod fun _ => rfl
    exact (contextOf_congr (by rw [hu.taps]; rfl) w).trans hlost.context
  · obtain ⟨hx, hq⟩ := hroom hr
    exact ⟨hu.shot.trans hx, hu.queue.trans hq⟩
  · obtain ⟨hx, hq⟩ := hfull hf
    exact ⟨hu.shot.trans hx, hu.queue.trans hq⟩

theorem tapFeed_overflowed (hc : contextOf s w = some c) (hfull : 128 ≤ s.taps.fifo.length) (ha : s.engine.activity = .replay) :
    Overflowed s (tapFeed s w l data) w c := by
  have hreported := tapFeed_full (w := w) (l := l) (data := data) hfull ha
  obtain h | h := Nat.lt_or_ge s.engine.queue.length 16
  · exact (putOff_room w .overflow (s := inlineWithdrawn (modContext s w feedLost) w) h).1.overflowed hreported hc
      (fun _ => ⟨rfl, rfl⟩) fun k => absurd h (Nat.not_lt_of_le k)
  · exact (putOff_full w .overflow (s := inlineWithdrawn (modContext s w feedLost) w) h).1.overflowed hreported hc
      (fun k => absurd k (Nat.not_lt_of_le h)) fun _ => ⟨rfl, rfl⟩

/-- R97: the focus check that a measurement comes to. -/
def measuredCheck (f : FocusSetup) (m : Measured) : FocusCheck := { state := checkStateOf f m, q := m.q, conf := m.conf }

/-- R97: what FOCUS CHECK says of a shot's own readout. -/
def checkNotice (s : State) (w : Fin 64) (z : Fin 63) (f : FocusSetup) (m : Measured) : Notice :=
  { kind := .focusCheck, window := windowByte w, seq := (s.shot w).seq, subject := z.val,
    details := byte1 (checkStateOf f m).code ++ signedBytes m.q ++ byte1 m.conf ++ signedBytes m.steps ++ byte1 Origin.inline.code
    fault := none }

/-- R66: the context whose still-check range has ended at line l. -/
def contextMeasured (c : TapContext) (l : Nat) (data : List Byte) : TapContext := { contextMoved c l data with still := none }

/-- The record with its focus check. -/
def checkedShot (x : Shot) (k : FocusCheck) : Shot := { x with focusCheck := some k }

theorem tapInOrder_measures {z : Fin 63} {a : StillAcc} {f : FocusSetup} {m : Measured} (hc : contextOf s w = some c)
    (hr : c.range = some z) (hs : c.still = some a) (hl : stillLine p z.val l = true) (hlast : lastStillLine p z.val = some l)
    (hfeed : c.inlineFeed = false) (hf : s.focus.setup = some f) (hstate : (s.shot w).state = .capturing)
    (hm : m = Machine.measure (addStillLine p l data a).sums f.search f.cmin p.kz) :
    ∃ t, TapAdvanced s t w (contextMeasured c l data) s.taps.fifo ∧ tapInOrder s w p c l data =
      hand (mirror (t.setShot w (checkedShot (s.shot w) (measuredCheck f m))) w [2]) (checkNotice s w (addStillLine p l data a).zone f m) := by
  have hmoved : TapAdvanced s (modContext s w fun c => { c with next := l + 1, crc := crcBytes c.crc data }) w
      (contextMoved c l data) s.taps.fifo := TapAdvanced.mod ⟨.refl hc, rfl, rfl⟩ fun _ => rfl
  have hended := hmoved.mod (f := fun c => { c with still := none }) fun _ => rfl
  refine ⟨_, hended, ?_⟩
  have hshot : (modContext (modContext s w fun c => { c with next := l + 1, crc := crcBytes c.crc data }) w
      fun c => { c with still := none }).shot w = s.shot w := rfl
  have hsetup : (modContext (modContext s w fun c => { c with next := l + 1, crc := crcBytes c.crc data }) w
      fun c => { c with still := none }).focus.setup = some f := hf
  simp only [tapInOrder, hfeed, Bool.false_eq_true, if_false]
  rw [tapStill_measures data hr hs hl hlast]
  generalize (modContext (modContext s w fun c => { c with next := l + 1, crc := crcBytes c.crc data }) w
      fun c => { c with still := none }) = t at hshot hsetup
  rw [measureStill_setup w p _ .inline hsetup, recordCheck_capturing (by rw [hshot]; exact hstate), ← hm, State.modShot, hshot]
  have hseq : ((t.setShot w (checkedShot (s.shot w) (measuredCheck f m))).shot w).seq = (s.shot w).seq := by
    rw [State.shot_setShot_same]; rfl
  generalize hu : t.setShot w (checkedShot (s.shot w) (measuredCheck f m)) = u at hseq
  have hnotice : shotNotice u w .focusCheck (addStillLine p l data a).zone.val
      (byte1 (measuredCheck f m).state.code ++ signedBytes (measuredCheck f m).q ++ byte1 (measuredCheck f m).conf ++
        signedBytes m.steps ++ byte1 Origin.inline.code) = checkNotice s w (addStillLine p l data a).zone f m := by
    rw [shotNotice, hseq]
    rfl
  have hrecord : t.setShot w { s.shot w with focusCheck := some (measuredCheck f m) } = u := hu
  rw [← hnotice, ← hrecord]
  rfl

end

/-! ### A line that fills its raw entry (R6) -/

/-- What is reported of a state stays reported when a line enters the memory path behind it. -/
theorem OnlyReports.lineEnters {ls : List OwnLine} {b u c t : State} {a : Nat} {data : List Byte} {mask : BitVec 64}
    (h : OnlyReports ls 0 b u) (hb : MemoryCanonical b) (hu : MemoryCanonical u)
    (blocks : { t with mem := c.mem, port := c.port, notice := c.notice } = c) (caSel : c.caSel = b.caSel)
    (port : { t.port with writes := c.port.writes, work := c.port.work, nextEntry := c.port.nextEntry } = c.port)
    (notice : c.notice = b.notice) (notice' : t.notice = u.notice)
    (mem : c.mem = b.mem.writeLine a data mask) (mem' : t.mem = u.mem.writeLine a data mask) : OnlyReports ls 0 c t where
  blocks := blocks
  port := port
  notice := by rw [notice, notice']; exact h.notice
  quiet hn := by rw [notice, notice']; exact h.quiet hn
  count := by rw [notice, notice']; exact h.count
  mem x hl _ := by
    rw [mem, mem', Memory.read_writeLine _ _ _ _ hu, Memory.read_writeLine _ _ _ _ hb]
    have hread : u.mem.read x = b.mem.read x := by
      exact h.mem x (fun l hm => (hl l hm).congr caSel.symm) fun i hi => absurd hi (Nat.not_lt_zero i)
    rw [hread]

section
variable {s : State} {rest : List Request} {data : List Byte} {mask : BitVec 64} {w : Fin 64} {a g n res : Nat} {more : List Nat}
  {p : Profile}

theorem lineStored_shot : (lineStored s rest w p a data mask).shot w = { s.shot w with timer := captureTimer s.now p } :=
  State.shot_setShot_same s w _

theorem lineStored_linesIn (s : State) (rest : List Request) (w : Fin 64) (p : Profile) (a : Nat) (data : List Byte) (mask : BitVec 64) :
    LinesIn 0 s (lineStored s rest w p a data mask) where
  caSel := rfl
  now := rfl
  notice := rfl
  mem h := Memory.wf_writeLine _ _ _ _ h
  room hwork _ := ⟨hwork, Nat.le_refl _⟩

theorem lineStored_shot_other {v : Fin 64} (h : v ≠ w) : (lineStored s rest w p a data mask).shot v = s.shot v :=
  State.shot_setShot_other s w v _ h

/-- R6: the record of a shot of which one more raw granule is mapped. -/
def rawMappedShot (x : Shot) (res : Nat) : Shot := { x with reservation := res, rawMapped := x.rawMapped + 1 }

theorem rawFilled_shot : (rawFilled s w g n more res).shot w = rawMappedShot (s.shot w) res := State.shot_setShot_same s w _

theorem rawFilled_shot_other {v : Fin 64} (h : v ≠ w) : (rawFilled s w g n more res).shot v = s.shot v :=
  State.shot_setShot_other s w v _ h

theorem rawFilled_mapsOf : (rawFilled s w g n more res).mapsOf w = { s.mapsOf w with raw := (s.mapsOf w).raw.setIfInBounds g (some n) } :=
  mapsOf_set_same s w _

theorem rawFilled_mapsOf_other {v : Fin 64} (h : v ≠ w) : (rawFilled s w g n more res).mapsOf v = s.mapsOf v :=
  mapsOf_set_other s _ h

theorem rawFilled_rawEntry (hg : (s.mapsOf w).raw[g]? = some none) (h : Nat) :
    (rawFilled s w g n more res).rawEntry w h = if h = g then some n else s.rawEntry w h := by
  obtain ⟨hlt, -⟩ := Vector.getElem?_eq_some_iff.mp hg
  rw [State.rawEntry, rawFilled_mapsOf, Vector.getElem?_setIfInBounds, State.rawEntry]
  by_cases hh : h = g
  · subst hh
    simp only [if_true]
    rw [if_pos hlt]
    rfl
  · rw [if_neg (Ne.symm hh), if_neg hh]

/-- R6: the granule is mapped, with its mirror line and the pool's cursor page line. -/
def rawGranted (s : State) (w : Fin 64) (g n : Nat) (more : List Nat) (res : Nat) : State :=
  publish (mirror (rawFilled s w g n more res) w [1]) 2

theorem rawGranted_reports (s : State) (w : Fin 64) (g n : Nat) (more : List Nat) (res : Nat) :
    OnlyReports [.mirror w 1, .cursor 2] 0 (rawFilled s w g n more res) (rawGranted s w g n more res) :=
  (mirror_reports _ w [1]).trans (publish_reports _ 2)

theorem rawGranted_linesIn (s : State) (w : Fin 64) (g n : Nat) (more : List Nat) (res : Nat) :
    LinesIn 2 s (rawGranted s w g n more res) :=
  LinesIn.trans (n := 1) (k := 1) (LinesIn.trans (n := 1) (k := 0) (t := rawFilled s w g n more res) .of_ports (mirror_linesIn _ w [1]))
    (publish_linesIn _ 2)

/-- R6, R34, R50: a line has filled its raw entry, entered the memory path and restarted the capture timer. -/
def lineGranted (s : State) (rest : List Request) (w : Fin 64) (p : Profile) (g n : Nat) (more : List Nat) (res a : Nat) (data : List Byte)
    (mask : BitVec 64) : State :=
  (enterPassWrite (rawGranted (freeWriteSlot s rest) w g n more res) a data mask).setShot w
    { rawMappedShot (s.shot w) res with timer := captureTimer s.now p }

theorem lineGranted_reports (hm : MemoryCanonical s) (x : Taps) {c t : State}
    (ht : t = { lineGranted s rest w p g n more res a data mask with taps := x })
    (hc : c = { lineStored s rest w p a data mask with
      pool := { s.pool with free := more }
      maps := t.maps
      shots := (lineStored s rest w p a data mask).shots.set w.val
        { (lineStored s rest w p a data mask).shot w with reservation := res, rawMapped := (s.shot w).rawMapped + 1 }
      taps := t.taps
      port := { s.port with pass := t.port.pass } }) : OnlyReports [.mirror w 1, .cursor 2] 0 c t := by
  have hgranted := rawGranted_reports (freeWriteSlot s rest) w g n more res
  have hmem := (rawGranted_linesIn (freeWriteSlot s rest) w g n more res).mem hm
  have hshots : (lineStored s rest w p a data mask).shots.set w.val
      { (lineStored s rest w p a data mask).shot w with reservation := res, rawMapped := (s.shot w).rawMapped + 1 } =
        (rawFilled (freeWriteSlot s rest) w g n more res).shots.set w.val
          { rawMappedShot (s.shot w) res with timer := captureTimer s.now p } := by
    rw [lineStored_shot, lineStored, rawFilled, Vector.set_set, Vector.set_set]
    rfl
  rw [hshots] at hc
  rw [lineGranted] at ht
  generalize rawGranted (freeWriteSlot s rest) w g n more res = u at hgranted hmem ht
  have hport := hgranted.port
  obtain ⟨m, q, k, hu⟩ : ∃ m q k, u = { rawFilled (freeWriteSlot s rest) w g n more res with mem := m, port := q, notice := k } :=
    ⟨u.mem, u.port, u.notice, by rw [← hgranted.blocks]⟩
  subst hu
  subst ht
  subst hc
  refine hgranted.lineEnters (data := data) (mask := mask) (a := a) hm hmem rfl rfl ?_ rfl rfl rfl rfl
  have e := congrArg (fun r : MemoryPort => { r with pass := q.pass ++
    [({ addr := a, kind := .write data mask, entry := q.nextEntry } : PassEntry)] }) hport
  exact e

theorem rawGranted_shot (v : Fin 64) : (rawGranted s w g n more res).shot v = (rawFilled s w g n more res).shot v :=
  (rawGranted_reports s w g n more res).reported.field fun u => u.shot v

theorem rawGranted_maps : (rawGranted s w g n more res).maps = (rawFilled s w g n more res).maps :=
  (rawGranted_reports s w g n more res).reported.field State.maps

/-- A line that fills its raw entry enters the memory path and restarts the capture timer. -/
theorem restartTimer_granted (a : Nat) (data : List Byte) (mask : BitVec 64) (hp : (s.shot w).profile = some p) :
    restartTimer (enterPassWrite (rawGranted s w g n more res) a data mask) w =
      (enterPassWrite (rawGranted s w g n more res) a data mask).setShot w
        { rawMappedShot (s.shot w) res with timer := captureTimer s.now p } := by
  have hshot : (rawGranted s w g n more res).shot w = rawMappedShot (s.shot w) res := (rawGranted_shot w).trans rawFilled_shot
  have hnow : (rawGranted s w g n more res).now = s.now := (rawGranted_reports s w g n more res).reported.field State.now
  generalize rawGranted s w g n more res = u at hshot hnow
  have hshot' : (enterPassWrite u a data mask).shot w = rawMappedShot (s.shot w) res := hshot
  rw [restartTimer_profile (p := p) (by rw [hshot']; exact hp), hshot']
  exact congrArg (fun d => (enterPassWrite u a data mask).setShot w { rawMappedShot (s.shot w) res with timer := captureTimer d p }) hnow

theorem lineGranted_eq (hp : (s.shot w).profile = some p) :
    restartTimer (enterPassWrite (rawGranted (freeWriteSlot s rest) w g n more res) a data mask) w =
      lineGranted s rest w p g n more res a data mask := restartTimer_granted (s := freeWriteSlot s rest) a data mask hp

end

section
variable {s : State} {r : Request} {rest : List Request} {data : List Byte} {mask : BitVec 64} {w : Fin 64} {o n : Nat} {p : Profile}

/-- A line that does not end the frame, in a granule that is mapped. -/
theorem exec_mappedLine (htakes : TakesWrite s r rest data mask) (hspace : classify (lineAddr r) = .shot w o)
    (hclass : sourceClass r.tag = .capture) (hstate : (s.shot w).state = .capturing) (hp : (s.shot w).profile = some p)
    (ho : o < (s.shot w).rawLength) (hend : o + 64 ≠ (s.shot w).rawLength) (hn : s.rawEntry w (o / Config.granule) = some n) :
    exec .takeWrite s = .next (tapReceive (lineStored s rest w p (n * Config.granule + o % Config.granule) data mask) w (o / 64)
      (mask == fullMask) data) := by
  have hstored := captureStore_mapped (s := freeWriteSlot s rest) (data := data) (mask := mask) hn
  rw [lineStored_eq rest _ data mask hp] at hstored
  have hcapturing : ((lineStored s rest w p (n * Config.granule + o % Config.granule) data mask).shot w).state = .capturing := by
    rw [lineStored_shot]; exact hstate
  have hkept := (tapReceive_tapKept hcapturing (o / 64) (mask == fullMask) data).records w
  have hlength := congrArg Shot.rawLength hkept
  rw [lineStored_shot] at hlength
  rw [exec_captureLine htakes hspace hclass hstate ho hstored]
  generalize tapReceive _ w (o / 64) (mask == fullMask) data = t at hlength
  have hlength' : (t.shot w).rawLength = (s.shot w).rawLength := hlength
  rw [if_neg (by rw [hlength']; exact hend)]

/-- A line that does not end the frame, in a granule that has to be mapped first. -/
theorem exec_grantedLine {more : List Nat} {res : Nat} (htakes : TakesWrite s r rest data mask)
    (hspace : classify (lineAddr r) = .shot w o)
    (hclass : sourceClass r.tag = .capture) (hstate : (s.shot w).state = .capturing) (hp : (s.shot w).profile = some p)
    (ho : o < (s.shot w).rawLength) (hend : o + 64 ≠ (s.shot w).rawLength)
    (hg : (s.mapsOf w).raw[o / Config.granule]? = some none) (hfree : s.pool.free = n :: more)
    (hres : (s.shot w).reservation = res + 1) :
    exec .takeWrite s = .next (tapReceive (lineGranted s rest w p (o / Config.granule) n more res
      (n * Config.granule + o % Config.granule) data mask) w (o / 64) (mask == fullMask) data) := by
  have hnone : (freeWriteSlot s rest).rawEntry w (o / Config.granule) = none := by
    have h : (s.mapsOf w).raw[o / Config.granule]?.join = none := by rw [hg]; rfl
    exact h
  have hentry : (rawGranted (freeWriteSlot s rest) w (o / Config.granule) n more res).rawEntry w (o / Config.granule) = some n := by
    have h := rawFilled_rawEntry (s := freeWriteSlot s rest) (n := n) (res := res) (more := more) hg (o / Config.granule)
    rw [if_pos rfl] at h
    rw [← h]
    simp only [State.rawEntry, State.mapsOf, rawGranted_maps]
  have hstored := captureStore_allocates (data := data) (mask := mask) hnone
    (allocateRaw_eq (s := freeWriteSlot s rest) hg hfree hres) hentry
  have heq := lineGranted_eq (s := s) (rest := rest) (g := o / Config.granule) (n := n) (more := more) (res := res)
    (a := n * Config.granule + o % Config.granule) (data := data) (mask := mask) hp
  rw [rawGranted] at heq
  rw [heq] at hstored
  have hshot : (lineGranted s rest w p (o / Config.granule) n more res (n * Config.granule + o % Config.granule) data mask).shot w =
      { rawMappedShot (s.shot w) res with timer := captureTimer s.now p } := State.shot_setShot_same _ _ _
  generalize lineGranted s rest w p (o / Config.granule) n more res (n * Config.granule + o % Config.granule) data mask = v
    at hstored hshot
  have hkept := (tapReceive_tapKept (s := v) (w := w) (by rw [hshot]; exact hstate) (o / 64) (mask == fullMask) data).records w
  have hlength := congrArg Shot.rawLength hkept
  rw [hshot] at hlength
  rw [exec_captureLine htakes hspace hclass hstate ho hstored]
  generalize tapReceive _ w (o / 64) (mask == fullMask) data = t at hlength
  have hlength' : (t.shot w).rawLength = (s.shot w).rawLength := hlength
  rw [if_neg (by rw [hlength']; exact hend)]

end

section
variable {s : State} {r : Request} {rest : List Request} {data : List Byte} {mask : BitVec 64} {w : Fin 64} {o n a g res : Nat}
  {p : Profile} {c : TapContext} {more : List Nat}

/-- R62, R65: a stored line that goes on in order, or that the tap no longer follows, moves the taps alone. -/
theorem tapReceive_steady {l : Nat} (hc : contextOf s w = some c) (hp : (s.shot w).profile = some p)
    (h : c.following = true → mask = fullMask ∧ c.next = l ∧ ¬endsStillRange p c l ∧ (c.inlineFeed = true → s.taps.fifo.length < 128)) :
    TapAdvanced s (tapReceive s w l (mask == fullMask) data) w (if c.following then contextAfter p c l data else c)
      (if c.following && c.inlineFeed then s.taps.fifo ++ [{ window := w, line := l, data := data }] else s.taps.fifo) := by
  cases hf : c.following with
  | false =>
    rw [tapReceive_ignored l _ data hc hp hf]
    exact ⟨.refl hc, rfl, rfl⟩
  | true =>
    obtain ⟨hmask, hnext, hno, hroom⟩ := h hf
    rw [tapReceive_following l _ data hc hp hf, if_pos (by simp [hmask, hnext])]
    exact tapInOrder_advanced p data hc hno hroom

theorem TapAdvanced.of_taps {t : State} {q : List FifoEntry} (h : TapAdvanced s t w c q) : ∃ x, t = { s with taps := x } :=
  ⟨t.taps, by
    have e := congrArg (fun u : State => { u with taps := t.taps }) h.blocks
    exact e⟩

/-- What the granule that a line has filled leaves in the records, the maps and the pool (R6). -/
structure LineGranted (s t : State) (w : Fin 64) (p : Profile) (g n res : Nat) (more : List Nat) : Prop where
  entry : t.rawEntry w g = some n
  entries : ∀ h, h ≠ g → t.rawEntry w h = s.rawEntry w h
  preview : (t.mapsOf w).preview = (s.mapsOf w).preview
  free : t.pool.free = more
  reservation : (t.shot w).reservation = res
  rawMapped : (t.shot w).rawMapped = (s.shot w).rawMapped + 1
  timer : (t.shot w).timer = captureTimer s.now p
  others : ∀ u, u ≠ w → t.mapsOf u = s.mapsOf u ∧ (t.shot u).reservation = (s.shot u).reservation

theorem lineGranted_taps : (lineGranted s rest w p g n more res a data mask).taps = s.taps :=
  (rawGranted_reports (freeWriteSlot s rest) w g n more res).reported.field State.taps

theorem lineGranted_shot :
    (lineGranted s rest w p g n more res a data mask).shot w = { rawMappedShot (s.shot w) res with timer := captureTimer s.now p } :=
  State.shot_setShot_same _ _ _

theorem lineGranted_pass : (lineGranted s rest w p g n more res a data mask).port.pass = s.port.pass ++
    [{ addr := a, kind := .write data mask, entry := (rawGranted (freeWriteSlot s rest) w g n more res).port.nextEntry }] :=
  congrArg (· ++ [({ addr := a, kind := .write data mask
                     entry := (rawGranted (freeWriteSlot s rest) w g n more res).port.nextEntry } : PassEntry)])
    ((rawGranted_reports (freeWriteSlot s rest) w g n more res).reported.portField MemoryPort.pass)

theorem lineGranted_read (hm : MemoryCanonical s) {b : Nat} (hlow : a ≤ b) (hhigh : b < a + 64) (hmask : mask.getLsbD (b - a) = true) :
    (lineGranted s rest w p g n more res a data mask).mem.read b = data.getD (b - a) 0 := by
  have hmem := (rawGranted_linesIn (freeWriteSlot s rest) w g n more res).mem hm
  exact (Memory.read_writeLine _ a data mask hmem b).trans (if_pos ⟨hlow, hhigh, hmask⟩)

theorem lineGranted_tapKept {t : State} (hg : (s.mapsOf w).raw[g]? = some none)
    (h : TapKept (lineGranted s rest w p g n more res a data mask) t) : LineGranted s t w p g n res more := by
  have hreported := (rawGranted_reports (freeWriteSlot s rest) w g n more res).reported
  have hmaps : t.maps = (rawFilled (freeWriteSlot s rest) w g n more res).maps := h.maps.trans (hreported.field State.maps)
  have hpool : t.pool.free = more := h.free.trans (hreported.field fun u => u.pool.free)
  have hentry (i : Nat) : t.rawEntry w i = if i = g then some n else s.rawEntry w i := by
    have e := rawFilled_rawEntry (s := freeWriteSlot s rest) (n := n) (res := res) (more := more) hg i
    rw [State.rawEntry, State.mapsOf] at e ⊢
    rw [hmaps]
    exact e
  have hmapsOf (v : Fin 64) : t.mapsOf v = (rawFilled (freeWriteSlot s rest) w g n more res).mapsOf v := congrArg (·.get v) hmaps
  have hshot : (lineGranted s rest w p g n more res a data mask).shot w =
      { rawMappedShot (s.shot w) res with timer := captureTimer s.now p } := State.shot_setShot_same _ _ _
  have hother (v : Fin 64) (hv : v ≠ w) : (lineGranted s rest w p g n more res a data mask).shot v = s.shot v :=
    (State.shot_setShot_other _ _ _ _ hv).trans ((hreported.field fun u => u.shot v).trans (rawFilled_shot_other hv))
  have hrecord := h.records w
  rw [hshot] at hrecord
  refine ⟨by rw [hentry, if_pos rfl], fun i hi => by rw [hentry, if_neg hi], ?_, hpool, ?_, ?_, ?_, fun v hv => ⟨?_, ?_⟩⟩
  · rw [hmapsOf, rawFilled_mapsOf]
    rfl
  · have e := congrArg Shot.reservation hrecord
    exact e
  · have e := congrArg Shot.rawMapped hrecord
    exact e
  · have e := congrArg Shot.timer hrecord
    exact e
  · exact (hmapsOf v).trans (rawFilled_mapsOf_other hv)
  · have e := congrArg Shot.reservation (h.records v)
    rw [hother v hv] at e
    exact e

end

/-! ### What a stored line comes to at its tap -/

/-- State v is s but for a line of the CAPTURING shot in window w that has entered the memory path; its tap context is c. -/
structure LineStands (s v : State) (w : Fin 64) (c : TapContext) (p : Profile) : Prop where
  shot : v.shot w = { s.shot w with timer := captureTimer s.now p }
  others : ∀ u, u ≠ w → v.shot u = s.shot u
  context : contextOf v w = some c
  profile : (v.shot w).profile = some p
  state : (v.shot w).state = .capturing
  taps : v.taps = s.taps
  engine : v.engine = s.engine
  maps : v.maps = s.maps
  pool : v.pool = s.pool
  setup : v.focus.setup = s.focus.setup
  lines : LinesIn 0 s v

theorem lineStored_stands {s : State} (rest : List Request) {w : Fin 64} {c : TapContext} {p : Profile} (a : Nat) (data : List Byte)
    (mask : BitVec 64) (hc : contextOf s w = some c) (hp : (s.shot w).profile = some p) (hs : (s.shot w).state = .capturing) :
    LineStands s (lineStored s rest w p a data mask) w c p where
  shot := lineStored_shot
  others _ hu := lineStored_shot_other hu
  context := hc
  profile := by rw [lineStored_shot]; exact hp
  state := by rw [lineStored_shot]; exact hs
  taps := rfl
  engine := rfl
  maps := rfl
  pool := rfl
  setup := rfl
  lines := lineStored_linesIn s rest w p a data mask

section
variable {s v : State} {w : Fin 64} {c : TapContext} {p : Profile} {l : Nat} {data : List Byte} {mask : BitVec 64}

theorem LineStands.inOrder (h : LineStands s v w c p) (hf : c.following = true) (hmask : mask = fullMask) (hl : c.next = l) :
    tapReceive v w l (mask == fullMask) data = tapInOrder v w p c l data := by
  rw [tapReceive_following _ _ data h.context h.profile hf, if_pos (by simp [hmask, hl])]

/-- R62: a line in order at a tap that feeds nothing, or finds a place. -/
theorem LineStands.advanced (h : LineStands s v w c p) (hf : c.following = true) (hmask : mask = fullMask) (hl : c.next = l)
    (hno : ¬endsStillRange p c l) (hroom : c.inlineFeed = true → s.taps.fifo.length < 128) :
    TapAdvanced v (tapReceive v w l (mask == fullMask) data) w (contextAfter p c l data)
      (if c.inlineFeed then s.taps.fifo ++ [{ window := w, line := l, data := data }] else s.taps.fifo) := by
  rw [h.inOrder hf hmask hl, ← h.taps]
  exact tapInOrder_advanced p data h.context hno (by rw [h.taps]; exact hroom)

/-- R97: the line that ends the still-check range. -/
theorem LineStands.measures {z : Fin 63} {a : StillAcc} {f : FocusSetup} {m : Measured} (h : LineStands s v w c p)
    (hf : c.following = true) (hmask : mask = fullMask) (hl : c.next = l)
    (hr : c.range = some z) (hs : c.still = some a) (hline : stillLine p z.val l = true) (hlast : lastStillLine p z.val = some l)
    (hfeed : c.inlineFeed = false) (hsetup : s.focus.setup = some f)
    (hm : m = Machine.measure (addStillLine p l data a).sums f.search f.cmin p.kz) :
    ∃ x, ContextBecame v { v with taps := x } w (contextMeasured c l data) ∧ x.fifo = s.taps.fifo ∧
      tapReceive v w l (mask == fullMask) data = hand (mirror (({ v with taps := x } : State).setShot w
        (checkedShot (v.shot w) (measuredCheck f m))) w [2]) (checkNotice s w a.zone f m) := by
  obtain ⟨t, hadvanced, htap⟩ := tapInOrder_measures (data := data) h.context hr hs hline hlast hfeed (by rw [h.setup]; exact hsetup)
    h.state hm
  obtain ⟨x, rfl⟩ := hadvanced.of_taps
  obtain ⟨hbecame, hfifo, -⟩ := hadvanced
  have hseq : (v.shot w).seq = (s.shot w).seq := by rw [h.shot]
  have hnotice : checkNotice v w (addStillLine p l data a).zone f m = checkNotice s w a.zone f m := by
    rw [checkNotice, hseq]
    rfl
  rw [hnotice] at htap
  exact ⟨x, hbecame, hfifo.trans (by rw [h.taps]), (h.inOrder hf hmask hl).trans htap⟩

/-- R97: what the focus check of a readout reports. -/
theorem LineStands.checks {z : Fin 63} {a : StillAcc} {f : FocusSetup} {m : Measured} (h : LineStands s v w c p)
    (hf : c.following = true) (hmask : mask = fullMask) (hl : c.next = l)
    (hr : c.range = some z) (hs : c.still = some a) (hline : stillLine p z.val l = true) (hlast : lastStillLine p z.val = some l)
    (hfeed : c.inlineFeed = false) (hsetup : s.focus.setup = some f)
    (hm : m = Machine.measure (addStillLine p l data a).sums f.search f.cmin p.kz) :
    ∃ t, tapReceive v w l (mask == fullMask) data = t ∧ ContextBecame s t w (contextMeasured c l data) ∧ t.taps.fifo = s.taps.fifo ∧
      OnlyReports [.mirror w 2, .cursor 3] 1
        (({ v with taps := t.taps } : State).setShot w (checkedShot (v.shot w) (measuredCheck f m))) t ∧
      NoticeRecorded 1 (checkNotice s w a.zone f m) s t := by
  obtain ⟨x, hbecame, hfifo, htap⟩ := h.measures (data := data) hf hmask hl hr hs hline hlast hfeed hsetup hm
  have hreports := (mirror_reports (({ v with taps := x } : State).setShot w (checkedShot (v.shot w) (measuredCheck f m))) w [2]).trans
    (hand_reports _ (checkNotice s w a.zone f m) rfl)
  have hrecorded := LinesIn.hand_recorded ((h.lines.trans (k := 0) (n := 0) (u :=
    ({ v with taps := x } : State).setShot w (checkedShot (v.shot w) (measuredCheck f m))) .of_ports).trans (n := 1)
      (mirror_linesIn _ w [2])) (checkNotice s w a.zone f m)
  have htaps : (hand (mirror (({ v with taps := x } : State).setShot w (checkedShot (v.shot w) (measuredCheck f m))) w [2])
      (checkNotice s w a.zone f m)).taps = x := by rw [hand_taps, mirror_taps, State.setShot_taps]
  generalize hand (mirror (({ v with taps := x } : State).setShot w (checkedShot (v.shot w) (measuredCheck f m))) w [2])
    (checkNotice s w a.zone f m) = t at htap hreports hrecorded htaps
  have hended : ContextBecame s t w (contextMeasured c l data) :=
    (hbecame.of_contexts (u := t) (by rw [htaps])).since (by rw [h.taps])
  refine ⟨t, htap, hended, by rw [htaps, hfifo], ?_, hrecorded⟩
  rw [htaps]
  exact hreports

/-- R68: a fed line at a full FIFO while the engine replays. -/
theorem LineStands.overflows (h : LineStands s v w c p) (hf : c.following = true) (hmask : mask = fullMask) (hl : c.next = l)
    (hno : ¬endsStillRange p c l) (hfeed : c.inlineFeed = true) (hfull : 128 ≤ s.taps.fifo.length)
    (ha : s.engine.activity = .replay) : Overflowed v (tapReceive v w l (mask == fullMask) data) w (contextAfter p c l data) := by
  obtain ⟨t, hadvanced, htap⟩ := tapInOrder_fed (p := p) (data := data) (l := l) h.context hno hfeed
  obtain ⟨x, rfl⟩ := hadvanced.of_taps
  obtain ⟨hbecame, hfifo, -⟩ := hadvanced
  have hfifo' : ({ v with taps := x } : State).taps.fifo = v.taps.fifo := hfifo
  have hover := tapFeed_overflowed (l := l) (data := data) hbecame.context (by rw [hfifo', h.taps]; exact hfull)
    (by rw [← ha, ← h.engine])
  rw [h.inOrder hf hmask hl, htap]
  obtain ⟨hcontext, hqueue, hothers, hmaps, hpool, hsuspend, hroom, hfull⟩ := hover
  exact ⟨hcontext, by rw [hqueue, hfifo'], hothers, hmaps, hpool, hsuspend, hroom, hfull⟩

theorem LineStands.outOfOrder (h : LineStands s v w c p) (hf : c.following = true) (hout : ¬(mask = fullMask ∧ c.next = l)) :
    tapReceive v w l (mask == fullMask) data = tapDisorder v w c l (mask == fullMask) := by
  rw [tapReceive_following _ _ data h.context h.profile hf, if_neg]
  simpa using fun hm hl => hout ⟨hm, hl.symm⟩

theorem Disordered.since {t : State} {x : Shot} (h : Disordered v t w x) (others : ∀ u, u ≠ w → v.shot u = s.shot u)
    (engine : v.engine = s.engine) (taps : v.taps = s.taps) (maps : v.maps = s.maps) (pool : v.pool = s.pool) :
    Disordered s t w x := by
  have hjob : hasJob v w = hasJob s w := by rw [hasJob, engine, hasJob]
  obtain ⟨hinline, hinlineFull, hcheck, hkept, hothers, hmaps, hpool, hrunning⟩ := h
  rw [hjob, engine] at hinline hinlineFull hcheck hkept
  rw [taps] at hinline
  exact ⟨hinline, hinlineFull, hcheck, hkept, fun u hu => (hothers u hu).trans (others u hu), hmaps.trans maps, hpool.trans pool,
    hrunning.trans (by rw [engine])⟩

/-- R63: any other line while the engine replays. -/
theorem LineStands.disorders (h : LineStands s v w c p) (hf : c.following = true) (hout : ¬(mask = fullMask ∧ c.next = l))
    (ha : s.engine.activity = .replay) : Disordered s (tapReceive v w l (mask == fullMask) data) w (v.shot w) ∧
      ContextBecame s (tapReceive v w l (mask == fullMask) data) w (contextLost c) := by
  rw [h.outOfOrder hf hout]
  obtain ⟨hdisordered, hbecame⟩ := tapDisorder_disordered h.context (by rw [h.engine]; exact ha) l (mask == fullMask)
  exact ⟨hdisordered.since h.others h.engine h.taps h.maps h.pool, hbecame.since (by rw [h.taps])⟩

/-- R64: a disordered readout whose shot keeps its job is reported. -/
theorem LineStands.reports (h : LineStands s v w c p) (hf : c.following = true) (hout : ¬(mask = fullMask ∧ c.next = l))
    (ha : s.engine.activity = .replay) (hdev : (s.shot w).dev ≠ .inline) (hjob : hasJob s w = true) :
    NoticeRecorded 1 (disorderNotice s w c l (mask == fullMask)) s (tapReceive v w l (mask == fullMask) data) := by
  have hrecord : (v.shot w).dev = (s.shot w).dev ∧ (v.shot w).seq = (s.shot w).seq := by rw [h.shot]; exact ⟨rfl, rfl⟩
  have hnotice : disorderNotice v w c l (mask == fullMask) = disorderNotice s w c l (mask == fullMask) := by
    simp only [disorderNotice, shotNotice, hrecord]
  rw [h.outOfOrder hf hout, tapDisorder_kept (by rw [hrecord.1]; exact hdev) (by rw [hasJob, h.engine]; exact hjob)
    (by rw [h.engine]; exact ha), hnotice]
  exact (h.lines.trans (n := 1) (disorderMarked_linesIn v w)).hand_recorded _

end

end Sys2Proof.Machine

open Sys2Proof Sys2Proof.Machine

set_option Elab.async false

/-- Settles O18. -/
theorem inOrderLineAdvancesTap : Obligations.InOrderLineAdvancesTap := by
  intro s v r rest data mask w o n a g l c p htakes hspace hclass hstate hp ho hend hc hg hl ha hv
  subst hg hl ha
  have hstands : LineStands s v w c p := by rw [hv]; exact lineStored_stands rest _ data mask hc hp hstate
  have hmem : v.mem = s.mem.writeLine (n * Config.granule + o % Config.granule) data mask := by rw [hv]; rfl
  have hmapped (hn : s.rawEntry w (o / Config.granule) = some n) :
      exec .takeWrite s = .next (tapReceive v w (o / 64) (mask == fullMask) data) := by
    rw [hv]
    exact exec_mappedLine htakes hspace hclass hstate hp ho hend hn
  refine ⟨fun more res hm hnone hfree hres => ?_, fun hn hf => ?_, fun hn hf hmask hnext => ⟨fun hno hroom => ?_, ?_, ?_⟩, ?_⟩
  · have hexec := exec_grantedLine htakes hspace hclass hstate hp ho hend hnone hfree hres
    have hkept := tapReceive_tapKept (s := lineGranted s rest w p (o / Config.granule) n more res
      (n * Config.granule + o % Config.granule) data mask) (w := w) (by rw [lineGranted_shot]; exact hstate) (o / 64) (mask == fullMask) data
    have hpass := (tapReceive_keeps (b := true) (lineGranted s rest w p (o / Config.granule) n more res
      (n * Config.granule + o % Config.granule) data mask) w (o / 64) (mask == fullMask) data).pass
    have hsteady := fun h => tapReceive_steady (s := lineGranted s rest w p (o / Config.granule) n more res
      (n * Config.granule + o % Config.granule) data mask) (w := w) (mask := mask) (data := data) (l := o / 64) (c := c) (p := p)
      ((contextOf_congr (by rw [lineGranted_taps]) w).trans hc) (by rw [lineGranted_shot]; exact hp) h
    have hgranted := lineGranted_tapKept hnone hkept
    rw [lineGranted_pass] at hpass
    rw [lineGranted_taps] at hsteady
    have hread := fun b hlow hhigh hb => lineGranted_read (s := s) (rest := rest) (w := w) (p := p) (g := o / Config.granule) (n := n)
      (more := more) (res := res) (a := n * Config.granule + o % Config.granule) (data := data) (mask := mask) (b := b) hm hlow hhigh hb
    have hreports := fun x c t => lineGranted_reports (s := s) (rest := rest) (w := w) (p := p) (g := o / Config.granule) (n := n)
      (more := more) (res := res) (a := n * Config.granule + o % Config.granule) (data := data) (mask := mask) hm x (c := c) (t := t)
    have htaps := lineGranted_taps (s := s) (rest := rest) (w := w) (p := p) (g := o / Config.granule) (n := n) (more := more)
      (res := res) (a := n * Config.granule + o % Config.granule) (data := data) (mask := mask)
    generalize lineGranted s rest w p (o / Config.granule) n more res (n * Config.granule + o % Config.granule) data mask = u
      at hexec hgranted hpass hsteady hread hreports htaps
    generalize tapReceive u w (o / 64) (mask == fullMask) data = t at hexec hgranted hpass hsteady
    obtain ⟨hentry, hentries, hpreview, hpool, hreservation, hrawMapped, htimer, hothers⟩ := hgranted
    refine ⟨t, _, hexec, hentry, hentries, hpreview, hpool, hreservation, hrawMapped, htimer, hothers, hpass, fun h => ?_⟩
    have hadvanced := hsteady h
    obtain ⟨x, rfl⟩ := hadvanced.of_taps
    obtain ⟨hbecame, hfifo, -⟩ := hadvanced
    have hsince := hbecame.since (r := s) (by rw [htaps])
    exact ⟨hsince.context, hsince.others, hfifo, hread, hreports x _ _ rfl (by rw [hv])⟩
  · rw [hmapped hn, tapReceive_ignored _ _ data hstands.context hstands.profile hf]
  · have hadvanced := hstands.advanced (data := data) hf hmask hnext hno hroom
    have hexec := hmapped hn
    generalize tapReceive v w (o / 64) (mask == fullMask) data = t at hadvanced hexec
    obtain ⟨hbecame, hfifo, hblocks⟩ := hadvanced
    have hmem' : t.mem = v.mem := by
      have e := congrArg State.mem hblocks
      exact e
    rw [hstands.taps] at hblocks
    refine ⟨t, hexec, hblocks, hbecame.context, (hbecame.since (by rw [hstands.taps])).others, hfifo, fun hm b => ?_⟩
    rw [hmem', hmem, Memory.read_writeLine _ _ _ _ hm, hmask]
  · intro z acc f m hr hs hline hlast hfeed hsetup hm
    obtain ⟨t, htap, hended, hfifo, hreports, hrecorded⟩ := hstands.checks (data := data) hf hmask hnext hr hs hline hlast hfeed hsetup hm
    exact ⟨t, (hmapped hn).trans (congrArg _ htap), hended.context, hended.others, hfifo, hreports, hrecorded⟩
  · intro hno hfeed hfull hactivity
    have hover := hstands.overflows (data := data) hf hmask hnext hno hfeed hfull hactivity
    have hexec := hmapped hn
    generalize tapReceive v w (o / 64) (mask == fullMask) data = t at hover hexec
    obtain ⟨hcontext, hqueue, hothers, hmaps, hpool, hsuspend, hroom, hno⟩ := hover
    rw [hstands.engine] at hroom hno
    rw [hstands.taps] at hqueue
    have hjob : offeredJob w (v.shot w) .develop = offeredJob w (s.shot w) .develop := by rw [hstands.shot]; rfl
    rw [hjob] at hroom
    exact ⟨t, hexec, hcontext, hqueue, fun u hu => (hothers u hu).trans (hstands.others u hu), hmaps.trans hstands.maps,
      hpool.trans hstands.pool, hsuspend, hroom, hno⟩
  · intro hn hf hout hactivity
    obtain ⟨hdisordered, hbecame⟩ := hstands.disorders (data := data) hf hout hactivity
    refine ⟨_, hmapped hn, hbecame.context, hbecame.others, hdisordered, fun hdev hjob => ?_⟩
    have hmask : (if (mask == fullMask) = true then 1 else 0) = if mask = fullMask then 1 else 0 := by
      simp only [beq_iff_eq]
    have hrecorded := hstands.reports (data := data) hf hout hactivity hdev hjob
    rw [disorderNotice, hmask] at hrecorded
    exact hrecorded

end

section
/-! PROOFS. An admitted open: the record, the first granule, the tap, the engine and the lens (O17). -/

namespace Sys2Proof.Machine

set_option Elab.async false

/-! ### The record and the context of an open (R30, R61, R129) -/

theorem vector_two {α : Type} (v : Vector α 2) : v = #v[v.get 0, v.get 1] := by
  ext i hi
  match i, hi with
  | 0, _ => rfl
  | 1, _ => rfl

theorem bindContext_contextOf {s : State} {c : TapContext} (h : contextOf s c.window = none) :
    contextOf (bindContext s c) c.window = some c := by
  unfold contextOf at h
  unfold contextOf bindContext
  rw [vector_two s.taps.contexts] at h
  have hv := vector_two s.taps.contexts
  generalize s.taps.contexts.get 0 = a at *
  generalize s.taps.contexts.get 1 = b at *
  rw [hv]
  cases a with
  | none => simp
  | some x =>
    have hx : x.window ≠ c.window := fun e => by simp [e] at h
    simp [hx]
theorem bindContext_tapKept (s : State) (c : TapContext) : TapKept s (bindContext s c) := .of_shots

theorem openDev_tapKept (s : State) (w : Fin 64) (p : Profile) (taken : Bool) : TapKept s (openDev s w p taken).1 := by
  have hoffer := offerJob_tapKept s w .develop
  unfold openDev
  split
  · exact .refl s
  · split
    · exact setShot_tapKept (x := { s.shot w with dev := .inline }) rfl
    · generalize offerJob s w .develop = o at hoffer
      obtain ⟨t, took⟩ := o
      cases took with
      | true =>
        simp only
        exact hoffer.trans (setShot_tapKept (x := { t.shot w with dev := .queued, reason := some .engineBusy }) rfl)
      | false =>
        simp only
        exact hoffer.trans (setShot_tapKept (x := { t.shot w with dev := .failed, reason := some .queueFull }) rfl)

theorem TapKept.numbered {s t : State} (h : TapKept s t) (w : Fin 64) : TapKept (numberGiven s w) (numberGiven t w) :=
  ⟨h.records, h.maps, h.free, h.lens, congrArg nextSeq h.counter, rfl, h.now⟩

/-- The record and the number that an admitted open gives. -/
def openBegun (s : State) (w : Fin 64) (p : Profile) : State := numberGiven (s.setShot w (openedShot s p)) w

theorem openedState_tapKept (s : State) (w : Fin 64) (p : Profile) : TapKept (openBegun s w p) (openedState s w p) :=
  ((openDev_tapKept _ w p _).trans (bindContext_tapKept _ _)).numbered w

theorem recomputeCursor_tapKept (s : State) : TapKept s (recomputeCursor s) := .of_shots

theorem poolCounted_tapKept (r s : State) : TapKept s (poolCounted r s) := by
  obtain ⟨a, h⟩ := poolCounted_reported r s
  exact TapKept.trans (.of_shots) h.tapKept

theorem openedMirrored_tapKept (s : State) (w : Fin 64) (p : Profile) : TapKept (openedState s w p) (openedMirrored s w p) := by
  unfold openedMirrored
  exact (((mirror_reported _ w _).tapKept.trans (poolCounted_tapKept s _)).trans (recomputeCursor_tapKept _)).trans
    (publish_reported _ 1).tapKept

theorem openedChecked_tapKept (s : State) (w : Fin 64) (p : Profile) : TapKept (openBegun s w p) (openedChecked s w p) := by
  have hmirrored := (openedState_tapKept s w p).trans (openedMirrored_tapKept s w p)
  have hstate : ((openedMirrored s w p).shot w).state = .capturing :=
    (hmirrored.state w).trans (congrArg Shot.state (State.shot_setShot_same s w (openedShot s p)))
  unfold openedChecked
  split
  · exact hmirrored
  · exact hmirrored.trans (recordCheck_tapKept hstate _ _ _ _)

theorem inlineOpened_tapKept (s : State) : TapKept s (inlineOpened s) := by
  unfold inlineOpened
  split
  · exact .of_shots
  · exact engineChoose_tapKept s

/-! ### Development at an open (R129, R131) -/

/-- The engine, the tap FIFO and every shot's development status are as in s. -/
structure DevelopmentKept (s t : State) : Prop where
  engine : t.engine = s.engine
  fifo : t.taps.fifo = s.taps.fifo
  dev : ∀ v, (t.shot v).dev = (s.shot v).dev
  reason : ∀ v, (t.shot v).reason = (s.shot v).reason

theorem DevelopmentKept.refl (s : State) : DevelopmentKept s s := ⟨rfl, rfl, fun _ => rfl, fun _ => rfl⟩

theorem DevelopmentKept.trans {s t u : State} (h : DevelopmentKept s t) (k : DevelopmentKept t u) : DevelopmentKept s u :=
  ⟨k.engine.trans h.engine, k.fifo.trans h.fifo, fun v => (k.dev v).trans (h.dev v), fun v => (k.reason v).trans (h.reason v)⟩

theorem Reported.developmentKept {s t : State} (h : Reported s t) : DevelopmentKept s t :=
  ⟨h.field State.engine, h.field fun u => u.taps.fifo, fun v => h.field fun u => (u.shot v).dev, fun v => h.field fun u => (u.shot v).reason⟩

theorem DevelopmentKept.of_shots {s t : State} (shots : t.shots = s.shots := by rfl) (engine : t.engine = s.engine := by rfl)
    (fifo : t.taps.fifo = s.taps.fifo := by rfl) : DevelopmentKept s t :=
  ⟨engine, fifo, fun v => congrArg (fun x => (Vector.get x v).dev) shots, fun v => congrArg (fun x => (Vector.get x v).reason) shots⟩

theorem setShot_developmentKept {s : State} {w : Fin 64} {x : Shot} (hdev : x.dev = (s.shot w).dev)
    (hreason : x.reason = (s.shot w).reason) : DevelopmentKept s (s.setShot w x) where
  engine := rfl
  fifo := rfl
  dev v := by
    by_cases hv : v = w
    · rw [hv, State.shot_setShot_same, hdev]
    · rw [State.shot_setShot_other _ _ _ _ hv]
  reason v := by
    by_cases hv : v = w
    · rw [hv, State.shot_setShot_same, hreason]
    · rw [State.shot_setShot_other _ _ _ _ hv]

theorem recordCheck_developmentKept {s : State} {w : Fin 64} (h : (s.shot w).state = .capturing) (zone : Nat) (check : FocusCheck)
    (steps : Int) (origin : Origin) : DevelopmentKept s (recordCheck s w zone check steps origin) := by
  have hset : DevelopmentKept s (s.modShot w fun x => { x with focusCheck := some check }) :=
    setShot_developmentKept (x := { s.shot w with focusCheck := some check }) rfl rfl
  rw [recordCheck_capturing h]
  generalize (s.modShot w fun x => { x with focusCheck := some check }) = t at hset
  exact (hset.trans (mirror_reported t w [2]).developmentKept).trans (shotNotice_reported _ _ _ _ _ _).developmentKept

theorem measureStill_developmentKept {s : State} {w : Fin 64} (h : (s.shot w).state = .capturing) (p : Profile) (a : StillAcc)
    (origin : Origin) : DevelopmentKept s (measureStill s w p a origin) := by
  cases hf : s.focus.setup with
  | none =>
    simp only [measureStill, hf]
    exact .refl s
  | some f =>
    rw [measureStill_setup w p a origin hf]
    exact recordCheck_developmentKept h _ _ _ _

theorem modContext_developmentKept (s : State) (w : Fin 64) (f : TapContext → TapContext) : DevelopmentKept s (modContext s w f) := .of_shots

theorem tapStill_developmentKept {s : State} {w : Fin 64} (h : (s.shot w).state = .capturing) (p : Profile) (c : TapContext) (l : Nat)
    (data : List Byte) : DevelopmentKept s (tapStill s w p c l data) := by
  unfold tapStill
  split
  · split
    · split
      · exact DevelopmentKept.trans (modContext_developmentKept s w _) (measureStill_developmentKept (modContext_state h _) p _ _)
      · exact modContext_developmentKept s w _
    · exact .refl s
  · exact .refl s

/-- R62, R67: a line in order that finds a place in the FIFO, where it is fed. -/
structure LineFed (s t : State) (q : List FifoEntry) : Prop where
  engine : t.engine = s.engine
  fifo : t.taps.fifo = q
  dev : ∀ v, (t.shot v).dev = (s.shot v).dev
  reason : ∀ v, (t.shot v).reason = (s.shot v).reason

theorem tapInOrder_fedTo {s : State} {w : Fin 64} (h : (s.shot w).state = .capturing) (p : Profile) (c : TapContext) (l : Nat)
    (data : List Byte) (hroom : s.taps.fifo.length < 128) : LineFed s (tapInOrder s w p c l data)
      (if c.inlineFeed then s.taps.fifo ++ [{ window := w, line := l, data := data }] else s.taps.fifo) := by
  have hstill := (modContext_developmentKept s w fun c => { c with next := l + 1, crc := crcBytes c.crc data }).trans
    (tapStill_developmentKept (modContext_state h _) p c l data)
  simp only [tapInOrder]
  generalize tapStill (modContext s w fun c => { c with next := l + 1, crc := crcBytes c.crc data }) w p c l data = t at hstill ⊢
  obtain ⟨hengine, hfifo, hdev, hreason⟩ := hstill
  split
  · rw [tapFeed_room w l data (by rw [hfifo]; exact hroom)]
    exact ⟨hengine, by rw [hfifo], hdev, hreason⟩
  · exact ⟨hengine, hfifo, hdev, hreason⟩

theorem LineFed.of_kept {s t u : State} {q : List FifoEntry} (h : LineFed s t q) (k : DevelopmentKept t u) : LineFed s u q :=
  ⟨k.engine.trans h.engine, k.fifo.trans h.fifo, fun v => (k.dev v).trans (h.dev v), fun v => (k.reason v).trans (h.reason v)⟩

theorem openedMirrored_reported (s : State) (w : Fin 64) (p : Profile) : DevelopmentKept (openedState s w p) (openedMirrored s w p) ∧
    (openedMirrored s w p).taps = (openedState s w p).taps := by
  unfold openedMirrored
  generalize (if ((openedState s w p).shot w).dev = .failed then recordLines ++ histLines else recordLines) = lines
  have hmirror := mirror_reported (openedState s w p) w lines
  generalize mirror (openedState s w p) w lines = t at hmirror
  obtain ⟨a, hcounted⟩ := poolCounted_reported s t
  generalize poolCounted s t = u at hcounted
  have hpublished := publish_reported (recomputeCursor u) 1
  refine ⟨((hmirror.developmentKept.trans (.of_shots (t := { t with pool := { t.pool with armed := a } }))).trans
    hcounted.developmentKept).trans ((DevelopmentKept.of_shots (t := recomputeCursor u)).trans hpublished.developmentKept), ?_⟩
  exact (hpublished.field State.taps).trans ((hcounted.field State.taps).trans (hmirror.field State.taps))

theorem openedMirrored_state (s : State) (w : Fin 64) (p : Profile) : ((openedMirrored s w p).shot w).state = .capturing :=
  ((openedState_tapKept s w p).trans (openedMirrored_tapKept s w p)).state w |>.trans
    (congrArg Shot.state (State.shot_setShot_same s w (openedShot s p)))

theorem recordCheck_taps {s : State} {w : Fin 64} (h : (s.shot w).state = .capturing) (zone : Nat) (check : FocusCheck) (steps : Int)
    (origin : Origin) : (recordCheck s w zone check steps origin).taps = s.taps := by
  rw [recordCheck_capturing h, hand_taps, mirror_taps]
  rfl

theorem openedChecked_kept (s : State) (w : Fin 64) (p : Profile) : DevelopmentKept (openedState s w p) (openedChecked s w p) ∧
    (openedChecked s w p).taps = (openedState s w p).taps := by
  obtain ⟨hkept, htaps⟩ := openedMirrored_reported s w p
  have hstate := openedMirrored_state s w p
  unfold openedChecked
  split
  · exact ⟨hkept, htaps⟩
  · exact ⟨hkept.trans (recordCheck_developmentKept hstate _ _ _ _), (recordCheck_taps hstate _ _ _ _).trans htaps⟩

theorem openDev_taps (s : State) (w : Fin 64) (p : Profile) (taken : Bool) : (openDev s w p taken).1.taps = s.taps := by
  have hoffer : (offerJob s w .develop).1.taps = s.taps := by
    obtain h | h := Nat.lt_or_ge s.engine.queue.length 16
    · rw [offerJob_room w _ h]
      exact (publish_reported _ 5).field State.taps
    · rw [offerJob_full w _ h]
  unfold openDev
  split
  · rfl
  · split
    · rfl
    · generalize offerJob s w .develop = o at hoffer
      obtain ⟨t, took⟩ := o
      cases took with
      | true => exact hoffer
      | false => exact hoffer

theorem openedChecked_context {s : State} {w : Fin 64} (p : Profile) (h : contextOf s w = none) :
    contextOf (openedChecked s w p) w = some (openedContext s w p) := by
  have hdev : (openedDev s w p).1.taps = s.taps := openDev_taps _ w p _
  have hbound := bindContext_contextOf (s := (openedDev s w p).1) (c := openedContext s w p)
    ((contextOf_congr (by rw [hdev]) w).trans h)
  exact (contextOf_congr (by rw [(openedChecked_kept s w p).2]; rfl) w).trans hbound

/-! What R129 and R131 leave of the shot's development and of the engine. -/

/-- The shot in window w has development d and reason r, no other shot's development has changed, and the engine is e. -/
structure OpenedWith (s t : State) (w : Fin 64) (d : DevStatus) (r : Option DevReason) (e : Engine) : Prop where
  dev : (t.shot w).dev = d
  reason : (t.shot w).reason = r
  others : ∀ v, v ≠ w → (t.shot v).dev = (s.shot v).dev
  engine : t.engine = e
  fifo : t.taps.fifo = s.taps.fifo

theorem OpenedWith.kept {s t u : State} {w : Fin 64} {d : DevStatus} {r : Option DevReason} {e : Engine} (h : OpenedWith s t w d r e)
    (k : DevelopmentKept t u) : OpenedWith s u w d r e :=
  ⟨(k.dev w).trans h.dev, (k.reason w).trans h.reason, fun v hv => (k.dev v).trans (h.others v hv), k.engine.trans h.engine,
    k.fifo.trans h.fifo⟩

theorem OpenedWith.record {s t : State} {w : Fin 64} {x : Shot} (hdev : ∀ v, v ≠ w → (t.shot v).dev = (s.shot v).dev)
    (hfifo : t.taps.fifo = s.taps.fifo) : OpenedWith s (t.setShot w x) w x.dev x.reason t.engine :=
  ⟨by rw [State.shot_setShot_same], by rw [State.shot_setShot_same],
    fun v hv => by rw [State.shot_setShot_other _ _ _ _ hv]; exact hdev v hv, rfl, hfifo⟩

theorem openedDev_undeveloped {s : State} {w : Fin 64} {p : Profile} (h : p.developed = false) :
    OpenedWith s (openedDev s w p).1 w .none none s.engine ∧ (openedDev s w p).2 = false := by
  have hdev : openedDev s w p = (s.setShot w (openedShot s p), false) := by
    rw [openedDev, openDev, h]
    rfl
  rw [hdev]
  exact ⟨.record (x := openedShot s p) (fun _ _ => rfl) rfl, rfl⟩

theorem openedDev_inline {s : State} {w : Fin 64} {p : Profile} (h : p.developed = true) (hfree : ∀ v, (s.shot v).dev ≠ .inline) :
    OpenedWith s (openedDev s w p).1 w .inline none s.engine ∧ (openedDev s w p).2 = false := by
  have hdev : openedDev s w p = ((s.setShot w (openedShot s p)).setShot w { openedShot s p with dev := .inline }, false) := by
    rw [openedDev, openDev, h, inlineShot_none hfree, State.modShot, State.shot_setShot_same]
    rfl
  rw [hdev]
  exact ⟨.record (t := s.setShot w (openedShot s p)) (x := { openedShot s p with dev := .inline })
    (fun v hv => by rw [State.shot_setShot_other _ _ _ _ hv]) rfl, rfl⟩

/-- The DEVELOP job of a shot that opens. -/
def openedJob (s : State) (w : Fin 64) (p : Profile) : Job :=
  { window := w, seq := s.table.seqCounter, kind := .develop, set := some p.devSet, nextRow := 0, begun := false, saved := none }

theorem openedDev_taken {s : State} {w : Fin 64} {p : Profile} (h : p.developed = true) (htaken : ∃ v, (s.shot v).dev = .inline) :
    openedDev s w p = match offerJob (s.setShot w (openedShot s p)) w .develop with
      | (t, true) => (t.modShot w fun x => { x with dev := .queued, reason := some .engineBusy }, false)
      | (t, false) => (t.modShot w fun x => { x with dev := .failed, reason := some .queueFull }, true) := by
  obtain ⟨v, hv⟩ := htaken
  have hsome : (inlineShot s).isSome = true := by
    rw [inlineShot, List.find?_isSome]
    exact ⟨v, List.mem_finRange v, by simpa [State.shot] using hv⟩
  rw [openedDev, openDev, h, hsome]
  rfl

theorem openedDev_queued {s : State} {w : Fin 64} {p : Profile} (h : p.developed = true) (htaken : ∃ v, (s.shot v).dev = .inline)
    (hroom : s.engine.queue.length < 16) : OpenedWith s (openedDev s w p).1 w .queued (some .engineBusy)
      { s.engine with queue := s.engine.queue ++ [openedJob s w p] } ∧ (openedDev s w p).2 = false := by
  have hoffered := offerJob_retasked (s := s.setShot w (openedShot s p)) w .develop hroom
  rw [openedDev_taken h htaken]
  rw [offerJob_room (s := s.setShot w (openedShot s p)) w .develop hroom] at hoffered ⊢
  generalize publish (jobJoined (s.setShot w (openedShot s p)) w .develop) 5 = t at hoffered
  obtain ⟨-, hothers, -, -, htaps, hengine, -⟩ := hoffered
  have hset : (openedShot s p).devSet = some p.devSet := by simp only [openedShot, h, if_true]
  have hjob : offeredJob w ((s.setShot w (openedShot s p)).shot w) .develop = openedJob s w p := by
    rw [State.shot_setShot_same, offeredJob, hset]
    rfl
  rw [hjob] at hengine
  have hrecord := OpenedWith.record (s := s) (t := t) (w := w) (x := { t.shot w with dev := .queued, reason := some .engineBusy })
    (fun v hv => by rw [hothers v hv, State.shot_setShot_other _ _ _ _ hv]) (by rw [htaps]; rfl)
  rw [hengine] at hrecord
  exact ⟨hrecord, rfl⟩

theorem openedDev_failed {s : State} {w : Fin 64} {p : Profile} (h : p.developed = true) (htaken : ∃ v, (s.shot v).dev = .inline)
    (hfull : 16 ≤ s.engine.queue.length) : OpenedWith s (openedDev s w p).1 w .failed (some .queueFull) s.engine := by
  rw [openedDev_taken h htaken, offerJob_full (s := s.setShot w (openedShot s p)) w .develop hfull]
  exact .record (t := s.setShot w (openedShot s p))
    (x := { (s.setShot w (openedShot s p)).shot w with dev := .failed, reason := some .queueFull })
    (fun v hv => by rw [State.shot_setShot_other _ _ _ _ hv]) rfl

/-! ### The first line (R6, R30, R34) -/

/-- The first line of an admitted open has filled raw entry 0 and entered the memory path. -/
def openStored (s : State) (w : Fin 64) (p : Profile) (n : Nat) (more : List Nat) (res : Nat) (data : List Byte) : State :=
  restartTimer (enterPassWrite (rawGranted (openedChecked s w p) w 0 n more res) (n * Config.granule + 0 % Config.granule) data fullMask) w

section
variable {s : State} {w : Fin 64} {p : Profile} {n res : Nat} {more : List Nat} {data : List Byte}

theorem openedChecked_record : readoutLeft ((openedChecked s w p).shot w) = readoutLeft (openedShot s p) := by
  have h := (openedChecked_tapKept s w p).records w
  rw [h, openBegun]
  exact congrArg readoutLeft (State.shot_setShot_same s w (openedShot s p))

theorem openedChecked_other {v : Fin 64} (hv : v ≠ w) : readoutLeft ((openedChecked s w p).shot v) = readoutLeft (s.shot v) := by
  have h := (openedChecked_tapKept s w p).records v
  rw [h, openBegun]
  exact congrArg readoutLeft (State.shot_setShot_other s w v _ hv)

theorem openedChecked_now : (openedChecked s w p).now = s.now := by
  rw [(openedChecked_tapKept s w p).now]
  rfl

theorem openStored_eq : openStored s w p n more res data =
    (enterPassWrite (rawGranted (openedChecked s w p) w 0 n more res) (n * Config.granule + 0 % Config.granule) data fullMask).setShot w
      { rawMappedShot ((openedChecked s w p).shot w) res with timer := captureTimer s.now p } := by
  have hprofile : ((openedChecked s w p).shot w).profile = some p := by
    have e := congrArg Shot.profile (openedChecked_record (s := s) (w := w) (p := p))
    exact e
  have hnow := openedChecked_now (s := s) (w := w) (p := p)
  rw [openStored]
  generalize openedChecked s w p = o at hprofile hnow
  rw [restartTimer_granted _ data fullMask hprofile, hnow]

/-- What an open leaves of the shot table, the maps, the pool and the lens, the readout aside. -/
structure OpenLeft (s t : State) (w : Fin 64) (p : Profile) (n res : Nat) (more : List Nat) : Prop where
  record : readoutLeft (t.shot w) = readoutLeft (rawMappedShot (openedShot s p) res)
  others : ∀ v, v ≠ w → readoutLeft (t.shot v) = readoutLeft (s.shot v)
  entry : t.rawEntry w 0 = some n
  free : t.pool.free = more
  lens : t.lens = s.lens
  counter : t.table.seqCounter = nextSeq s.table.seqCounter
  lastOpened : t.table.lastOpened = w
  now : t.now = s.now

theorem OpenLeft.kept {t u : State} (h : OpenLeft s t w p n res more) (k : TapKept t u) : OpenLeft s u w p n res more where
  record := (k.records w).trans h.record
  others v hv := (k.records v).trans (h.others v hv)
  entry := by rw [State.rawEntry, State.mapsOf, k.maps]; exact h.entry
  free := k.free.trans h.free
  lens := k.lens.trans h.lens
  counter := k.counter.trans h.counter
  lastOpened := k.lastOpened.trans h.lastOpened
  now := k.now.trans h.now

theorem openedChecked_table : (openedChecked s w p).lens = s.lens ∧
    (openedChecked s w p).table.seqCounter = nextSeq s.table.seqCounter ∧ (openedChecked s w p).table.lastOpened = w := by
  have h := openedChecked_tapKept s w p
  rw [h.lens, h.counter, h.lastOpened]
  exact ⟨rfl, rfl, rfl⟩

/-- What the granule of a line leaves as it was, and what it fills. -/
theorem rawGranted_fields (hg : (s.mapsOf w).raw[0]? = some none) : (rawGranted s w 0 n more res).rawEntry w 0 = some n ∧
    (rawGranted s w 0 n more res).pool.free = more ∧ (rawGranted s w 0 n more res).lens = s.lens ∧
    (rawGranted s w 0 n more res).table = s.table ∧ (rawGranted s w 0 n more res).now = s.now ∧
    (rawGranted s w 0 n more res).taps = s.taps ∧ (rawGranted s w 0 n more res).engine = s.engine := by
  have h := (rawGranted_reports s w 0 n more res).reported
  have hentry := rawFilled_rawEntry (n := n) (res := res) (more := more) hg 0
  exact ⟨(h.field fun u => u.rawEntry w 0).trans (hentry.trans (if_pos rfl)), h.field fun u => u.pool.free, h.field State.lens,
    h.field State.table, h.field State.now, h.field State.taps, h.field State.engine⟩

theorem rawGranted_shot_other {v : Fin 64} (hv : v ≠ w) : (rawGranted s w 0 n more res).shot v = s.shot v :=
  (rawGranted_shot v).trans (rawFilled_shot_other hv)

theorem enterPassWrite_shot (u : State) (a : Nat) (data : List Byte) (mask : BitVec 64) (v : Fin 64) :
    (enterPassWrite u a data mask).shot v = u.shot v := rfl

/-- A line's entry and its shot's record leave the other blocks. -/
theorem enteredLine_fields (u : State) (w : Fin 64) (a : Nat) (data : List Byte) (mask : BitVec 64) (x : Shot) :
    ((enterPassWrite u a data mask).setShot w x).maps = u.maps ∧ ((enterPassWrite u a data mask).setShot w x).pool.free = u.pool.free ∧
      ((enterPassWrite u a data mask).setShot w x).lens = u.lens ∧ ((enterPassWrite u a data mask).setShot w x).table = u.table ∧
      ((enterPassWrite u a data mask).setShot w x).now = u.now ∧ ((enterPassWrite u a data mask).setShot w x).taps = u.taps :=
  ⟨rfl, rfl, rfl, rfl, rfl, rfl⟩

theorem openStored_left (hg : ((openedChecked s w p).mapsOf w).raw[0]? = some none) :
    OpenLeft s (openStored s w p n more res data) w p n res more := by
  have hrecord := openedChecked_record (s := s) (w := w) (p := p)
  have hothers := fun v hv => openedChecked_other (s := s) (w := w) (p := p) (v := v) hv
  obtain ⟨hlens, hcounter, hlast⟩ := openedChecked_table (s := s) (w := w) (p := p)
  have hnow := openedChecked_now (s := s) (w := w) (p := p)
  rw [openStored_eq]
  generalize openedChecked s w p = o at *
  obtain ⟨hentry', hfree', hlens', htable', hnow', -, -⟩ := rawGranted_fields (n := n) (more := more) (res := res) hg
  have hother' := fun v hv => rawGranted_shot_other (s := o) (w := w) (n := n) (more := more) (res := res) (v := v) hv
  generalize rawGranted o w 0 n more res = u at *
  obtain ⟨hmapsOf, hfreeOf, hlensOf, htableOf, hnowOf, -⟩ := enteredLine_fields u w (n * Config.granule + 0 % Config.granule) data fullMask
    { rawMappedShot (o.shot w) res with timer := captureTimer s.now p }
  refine ⟨?_, fun v hv => ?_, ?_, hfreeOf.trans hfree', hlensOf.trans (hlens'.trans hlens), ?_, ?_, hnowOf.trans (hnow'.trans hnow)⟩
  · rw [State.shot_setShot_same]
    exact congrArg (fun x => readoutLeft { rawMappedShot x res with timer := captureTimer s.now p }) hrecord
  · rw [State.shot_setShot_other _ _ _ _ hv, enterPassWrite_shot, hother' v hv]
    exact hothers v hv
  · rw [State.rawEntry, State.mapsOf, hmapsOf]
    exact hentry'
  · rw [htableOf, htable']
    exact hcounter
  · rw [htableOf, htable']
    exact hlast

theorem enterPassWrite_kept (u : State) (a : Nat) (data : List Byte) (mask : BitVec 64) : DevelopmentKept u (enterPassWrite u a data mask) :=
  .of_shots

theorem openStored_kept (hg : ((openedChecked s w p).mapsOf w).raw[0]? = some none) :
    DevelopmentKept (openedChecked s w p) (openStored s w p n more res data) ∧
      (openStored s w p n more res data).taps = (openedChecked s w p).taps := by
  rw [openStored_eq]
  generalize openedChecked s w p = o at *
  obtain ⟨-, -, -, -, -, htaps, hengine⟩ := rawGranted_fields (n := n) (more := more) (res := res) hg
  have hshot := rawGranted_shot (s := o) (w := w) (g := 0) (n := n) (more := more) (res := res) w
  rw [rawFilled_shot] at hshot
  have hother := fun v hv => rawGranted_shot_other (s := o) (w := w) (n := n) (more := more) (res := res) (v := v) hv
  generalize rawGranted o w 0 n more res = u at *
  have hdev (v : Fin 64) : (u.shot v).dev = (o.shot v).dev ∧ (u.shot v).reason = (o.shot v).reason := by
    by_cases hv : v = w
    · rw [hv, hshot]
      exact ⟨rfl, rfl⟩
    · rw [hother v hv]
      exact ⟨rfl, rfl⟩
  have hu : DevelopmentKept o u := ⟨hengine, by rw [htaps], fun v => (hdev v).1, fun v => (hdev v).2⟩
  obtain ⟨-, -, -, -, -, htapsOf⟩ := enteredLine_fields u w (n * Config.granule + 0 % Config.granule) data fullMask
    { rawMappedShot (o.shot w) res with timer := captureTimer s.now p }
  refine ⟨(hu.trans (enterPassWrite_kept u _ data fullMask)).trans (setShot_developmentKept ?_ ?_), htapsOf.trans htaps⟩
  · rw [enterPassWrite_shot, hshot]
  · rw [enterPassWrite_shot, hshot]

end

/-! ### The open as a whole (R30, R111, R129, R134) -/

section
variable {s : State} {w : Fin 64} {p : Profile} {n res : Nat} {more : List Nat} {data : List Byte}

/-- R30, R137: the notices of an open. -/
def openAnnounced (s : State) (w : Fin 64) (p : Profile) (t : State) : State :=
  if (openedDev s w p).2 then
    developFailed (shotOpened t w p ((openedChecked s w p).shot w).dev) w .queueFull (some .develop)
  else shotOpened t w p ((openedChecked s w p).shot w).dev

/-- R129, R134: the engine at an open. -/
def openEngaged (s : State) (w : Fin 64) (p : Profile) (t : State) : State :=
  if ((openedChecked s w p).shot w).dev = .inline then inlineOpened t else engineChoose t

/-- The tap has received the first line. -/
def openTapped (s : State) (w : Fin 64) (p : Profile) (n : Nat) (more : List Nat) (res : Nat) (data : List Byte) : State :=
  tapReceive (openStored s w p n more res data) w 0 true data

theorem admitOpen_eq (hg : ((openedChecked s w p).mapsOf w).raw[0]? = some none) (hfree : (openedChecked s w p).pool.free = n :: more)
    (hres : ((openedChecked s w p).shot w).reservation = res + 1) : admitOpen s w p data fullMask =
      some (judgeStopAtOpen (openEngaged s w p (openAnnounced s w p (openTapped s w p n more res data)))) := by
  have hnone : (openedChecked s w p).rawEntry w (0 / Config.granule) = none := by
    rw [Nat.zero_div, State.rawEntry, hg]
    rfl
  have hallocated : allocateRaw (openedChecked s w p) w (0 / Config.granule) = some (rawGranted (openedChecked s w p) w 0 n more res) := by
    rw [Nat.zero_div]
    exact allocateRaw_eq hg hfree hres
  have hentry : (rawGranted (openedChecked s w p) w 0 n more res).rawEntry w (0 / Config.granule) = some n := by
    rw [Nat.zero_div]
    exact (rawGranted_fields hg).1
  have hstored := captureStore_allocates (o := 0) (data := data) (mask := fullMask) hnone hallocated hentry
  have hfull : (fullMask == fullMask) = true := beq_self_eq_true _
  rw [hfull, Nat.zero_div] at hstored
  rw [admitOpen, initShot_eq]
  simp only [hstored, Option.map_some]
  rfl

theorem openAnnounced_reported (s : State) (w : Fin 64) (p : Profile) (t : State) : Reported t (openAnnounced s w p t) := by
  have hopened : Reported t (shotOpened t w p ((openedChecked s w p).shot w).dev) := shotNotice_reported _ _ _ _ _ _
  unfold openAnnounced
  split
  · exact hopened.trans (shotNotice_reported _ _ _ _ _ _)
  · exact hopened

theorem openEngaged_tapKept (s : State) (w : Fin 64) (p : Profile) (t : State) : TapKept t (openEngaged s w p t) := by
  unfold openEngaged
  split
  · exact inlineOpened_tapKept t
  · exact engineChoose_tapKept t

theorem openEngaged_left (hg : ((openedChecked s w p).mapsOf w).raw[0]? = some none) :
    OpenLeft s (openEngaged s w p (openAnnounced s w p (openTapped s w p n more res data))) w p n res more := by
  have hstored := openStored_left (n := n) (res := res) (more := more) (data := data) hg
  have hstate : ((openStored s w p n more res data).shot w).state = .capturing := by
    have e := congrArg Shot.state hstored.record
    exact e
  exact ((hstored.kept (tapReceive_tapKept hstate 0 true data)).kept (openAnnounced_reported s w p _).tapKept).kept
    (openEngaged_tapKept s w p _)

/-- R62, R67: the first line at the context of the open. -/
theorem openTapped_fed (hg : ((openedChecked s w p).mapsOf w).raw[0]? = some none) (hc : contextOf s w = none)
    (hroom : (openStored s w p n more res data).taps.fifo.length < 128) :
    LineFed (openStored s w p n more res data) (openTapped s w p n more res data)
      (if (openedContext s w p).inlineFeed then (openStored s w p n more res data).taps.fifo ++ [{ window := w, line := 0, data := data }]
        else (openStored s w p n more res data).taps.fifo) := by
  have hrecord := (openStored_left (n := n) (res := res) (more := more) (data := data) hg).record
  have hcontext := (contextOf_congr (congrArg Taps.contexts (openStored_kept (n := n) (res := res) (more := more) (data := data) hg).2)
    w).trans (openedChecked_context p hc)
  rw [openTapped]
  generalize openStored s w p n more res data = t at *
  have hstate : (t.shot w).state = .capturing := by
    have e := congrArg Shot.state hrecord
    exact e
  have hprofile : (t.shot w).profile = some p := by
    have e := congrArg Shot.profile hrecord
    exact e
  rw [tapReceive_following 0 true data hcontext hprofile rfl]
  exact tapInOrder_fedTo hstate p _ 0 data hroom

/-- The development, the engine and the tap FIFO that an open leaves. -/
structure OpenDeveloped (s t : State) (w : Fin 64) (d : DevStatus) (r : Option DevReason) (e : Engine) (q : List FifoEntry) : Prop where
  dev : (t.shot w).dev = d
  reason : (t.shot w).reason = r
  others : ∀ v, v ≠ w → (t.shot v).dev = (s.shot v).dev
  engine : t.engine = e
  fifo : t.taps.fifo = q

theorem openAnnounced_developed {d : DevStatus} {r : Option DevReason} {e : Engine} (h : OpenedWith s (openedDev s w p).1 w d r e)
    (hg : ((openedChecked s w p).mapsOf w).raw[0]? = some none) (hc : contextOf s w = none) (hroom : s.taps.fifo.length < 128) :
    OpenDeveloped s (openAnnounced s w p (openTapped s w p n more res data)) w d r e
      (if d = .inline then s.taps.fifo ++ [{ window := w, line := 0, data := data }] else s.taps.fifo) := by
  have hfeed : (openedContext s w p).inlineFeed = decide (d = .inline) := by
    rw [← h.dev]
    rfl
  have hbound : DevelopmentKept (openedDev s w p).1 (openedState s w p) := .of_shots
  have hstored := ((h.kept hbound).kept (openedChecked_kept s w p).1).kept
    (openStored_kept (n := n) (res := res) (more := more) (data := data) hg).1
  have hfed := openTapped_fed (n := n) (res := res) (more := more) (data := data) hg hc (by rw [hstored.fifo]; exact hroom)
  rw [hstored.fifo, hfeed] at hfed
  have hall := hfed.of_kept (openAnnounced_reported s w p _).developmentKept
  refine ⟨(hall.dev w).trans hstored.dev, (hall.reason w).trans hstored.reason, fun v hv => (hall.dev v).trans (hstored.others v hv),
    hall.engine.trans hstored.engine, hall.fifo.trans ?_⟩
  simp only [decide_eq_true_eq]

theorem openedChecked_dev {d : DevStatus} {r : Option DevReason} {e : Engine} (h : OpenedWith s (openedDev s w p).1 w d r e) :
    ((openedChecked s w p).shot w).dev = d := by
  have hbound : DevelopmentKept (openedDev s w p).1 (openedState s w p) := .of_shots
  exact ((h.kept hbound).kept (openedChecked_kept s w p).1).dev

/-- R134: a shot that is not INLINE leaves an engine that works alone. -/
theorem openEngaged_busy {t : State} (hdev : ((openedChecked s w p).shot w).dev ≠ .inline) (ha : t.engine.activity ≠ .idle) :
    openEngaged s w p t = t := by
  rw [openEngaged, if_neg hdev, engineChoose_busy ha]

theorem openEngaged_inline {t : State} (hdev : ((openedChecked s w p).shot w).dev = .inline) :
    openEngaged s w p t = inlineOpened t := if_pos hdev

theorem inlineOpened_replay {t : State} (ha : t.engine.activity = .replay) :
    inlineOpened t = t.setEngine { t.engine with suspend := true } := if_pos ha

/-- R129: an IDLE engine begins the inline job. -/
theorem inlineOpened_idle {t : State} (ha : t.engine.activity = .idle) (hw : (t.shot w).dev = .inline)
    (hothers : ∀ v, v ≠ w → (t.shot v).dev ≠ .inline) :
    Reported (t.setEngine { t.engine with activity := .inline w, run := freshRun }) (inlineOpened t) := by
  have hinline : inlineShot t = some w := by
    cases hfind : inlineShot t with
    | none => exact absurd hw (by simpa [State.shot] using List.find?_eq_none.mp hfind w (List.mem_finRange w))
    | some v =>
      have hv : (t.shot v).dev = .inline := by simpa [State.shot] using List.find?_some hfind
      by_cases h : v = w
      · rw [h]
      · exact absurd hv (hothers v h)
  have hopened : inlineOpened t = beginInline t w := by
    rw [inlineOpened, if_neg (by rw [ha]; exact Activity.noConfusion), engineChoose_inline ha hinline]
  rw [hopened]
  exact beginInline_reported t w

end

/-! ### The lens at an open (R111) -/

theorem judgeStopAtOpen_field {α : Type} (s : State) (g : State → α)
    (hg : ∀ (u : State) (l : Lens), g { u with lens := l } = g u := by intros; rfl) : g (judgeStopAtOpen s) = g s := by
  unfold judgeStopAtOpen
  split
  · split
    · rw [arbitrate_lens]
      exact (hg _ _).trans (hg s _)
    · split
      · split
        · exact hg s _
        · rfl
      · rfl
  · rfl

/-- R111: what an open makes of the lens controller l of a READY lens whose last report is r. -/
structure StopJudged (now : Nat) (l m : Lens) (r : PositionReport) : Prop where
  stops : r.moving = true → l.exchange = none → m = { l with
    stopPending := false
    exchange := some { request := .stop, frame := [4, 4], since := now, judgeStop := false } }
  waits : r.moving = true → l.exchange.isSome = true → m = { l with stopPending := true }
  judges : r.moving = false → ∀ x target speed, l.exchange = some x → x.request = .drive target speed →
    m = { l with exchange := some { x with judgeStop := true } }
  rests : r.moving = false → (∀ x target speed, l.exchange = some x → x.request ≠ .drive target speed) → m = l

theorem judgeStopAtOpen_unready {s : State} (h : s.lens.state ≠ .ready) : (judgeStopAtOpen s).lens = s.lens := by
  rw [judgeStopAtOpen, if_neg h]

theorem judgeStopAtOpen_moving {s : State} {r : PositionReport} (h : s.lens.state = .ready) (hr : s.lens.report = some r)
    (hm : r.moving = true) : judgeStopAtOpen s = arbitrate { s with lens := { s.lens with stopPending := true } } := by
  rw [judgeStopAtOpen, if_pos h, hr]
  exact if_pos hm

theorem judgeStopAtOpen_resting {s : State} {r : PositionReport} (h : s.lens.state = .ready) (hr : s.lens.report = some r)
    (hm : r.moving = false) : judgeStopAtOpen s = match s.lens.exchange with
      | some x => match x.request with
        | .drive _ _ => { s with lens := { s.lens with exchange := some { x with judgeStop := true } } }
        | _ => s
      | none => s := by
  rw [judgeStopAtOpen, if_pos h, hr]
  exact if_neg (by rw [Option.map_some, Option.getD_some, hm]; exact Bool.false_ne_true)

theorem judgeStopAtOpen_judged {s : State} {r : PositionReport} (h : s.lens.state = .ready) (hr : s.lens.report = some r) :
    StopJudged s.now s.lens (judgeStopAtOpen s).lens r where
  stops hm he := by
    have hchose := (arbiterChose { s with lens := { s.lens with stopPending := true } }).stop he h rfl
    rw [judgeStopAtOpen_moving h hr hm, hchose]
    rfl
  waits hm he := by
    have hchose := (arbiterChose { s with lens := { s.lens with stopPending := true } }).busy (.inl he)
    rw [judgeStopAtOpen_moving h hr hm, hchose]
  judges hm x target speed he hx := by
    rw [judgeStopAtOpen_resting h hr hm, he]
    simp only [hx]
  rests hm hno := by
    rw [judgeStopAtOpen_resting h hr hm]
    cases he : s.lens.exchange with
    | none => rfl
    | some x =>
      cases hx : x.request with
      | drive target speed => exact absurd hx (hno x target speed he)
      | ident => simp only [hx]
      | status => simp only [hx]
      | stop => simp only [hx]
      | message m => simp only [hx]

/-! ### The admitted open (O17) -/

section
variable {s : State} {w : Fin 64} {p : Profile} {n res : Nat} {more : List Nat} {data : List Byte}

/-- What an open comes to at the engine, from a window without a context and with a place in the FIFO. -/
structure OpenEngaged (s t : State) (w : Fin 64) (p : Profile) (data : List Byte) : Prop where
  undeveloped : p.developed = false → s.engine.activity ≠ .idle → (t.shot w).dev = .none ∧ t.engine = s.engine
  inline : p.developed = true → (∀ v, (s.shot v).dev ≠ .inline) →
    (t.shot w).dev = .inline ∧ t.taps.fifo = s.taps.fifo ++ [{ window := w, line := 0, data := data }] ∧
    (s.engine.activity = .idle → t.engine = { s.engine with activity := .inline w, run := freshRun }) ∧
    (s.engine.activity = .replay → t.engine = { s.engine with suspend := true })
  busy : p.developed = true → (∃ v, (s.shot v).dev = .inline) → s.engine.activity ≠ .idle →
    (s.engine.queue.length < 16 → (t.shot w).dev = .queued ∧ (t.shot w).reason = some .engineBusy ∧
      t.engine = { s.engine with queue := s.engine.queue ++ [openedJob s w p] }) ∧
    (16 ≤ s.engine.queue.length → (t.shot w).dev = .failed ∧ (t.shot w).reason = some .queueFull ∧ t.engine = s.engine)

theorem openEngaged_engaged (hg : ((openedChecked s w p).mapsOf w).raw[0]? = some none) (hc : contextOf s w = none)
    (hroom : s.taps.fifo.length < 128) :
    OpenEngaged s (openEngaged s w p (openAnnounced s w p (openTapped s w p n more res data))) w p data where
  undeveloped hp ha := by
    obtain ⟨hdev, -⟩ := openedDev_undeveloped (s := s) (w := w) hp
    have hleft := openAnnounced_developed (n := n) (res := res) (more := more) (data := data) hdev hg hc hroom
    rw [openEngaged_busy (by rw [openedChecked_dev hdev]; exact DevStatus.noConfusion) (by rw [hleft.engine]; exact ha)]
    exact ⟨hleft.dev, hleft.engine⟩
  inline hp hfree := by
    obtain ⟨hdev, -⟩ := openedDev_inline (w := w) hp hfree
    have hleft := openAnnounced_developed (n := n) (res := res) (more := more) (data := data) hdev hg hc hroom
    rw [if_pos rfl] at hleft
    rw [openEngaged_inline (openedChecked_dev hdev)]
    generalize openAnnounced s w p (openTapped s w p n more res data) = t at hleft
    obtain ⟨hdev', -, hothers, hengine, hfifo⟩ := hleft
    have hfree' (v : Fin 64) (hv : v ≠ w) : (t.shot v).dev ≠ .inline := by
      rw [hothers v hv]
      exact hfree v
    rw [← hengine, ← hfifo]
    by_cases hr : t.engine.activity = .replay
    · rw [inlineOpened_replay hr]
      exact ⟨hdev', rfl, fun ha => Activity.noConfusion (hr.symm.trans ha), fun _ => rfl⟩
    · by_cases hi : t.engine.activity = .idle
      · have hbegun := inlineOpened_idle hi hdev' hfree'
        exact ⟨(hbegun.field fun u => (u.shot w).dev).trans hdev', hbegun.field fun u => u.taps.fifo,
          fun _ => hbegun.field State.engine, fun h => absurd h hr⟩
      · rw [inlineOpened, if_neg hr, engineChoose_busy hi]
        exact ⟨hdev', rfl, fun h => absurd h hi, fun h => absurd h hr⟩
  busy hp htaken ha := by
    refine ⟨fun hq => ?_, fun hq => ?_⟩
    · obtain ⟨hdev, -⟩ := openedDev_queued (w := w) hp htaken hq
      have hleft := openAnnounced_developed (n := n) (res := res) (more := more) (data := data) hdev hg hc hroom
      rw [openEngaged_busy (by rw [openedChecked_dev hdev]; exact DevStatus.noConfusion) (by rw [hleft.engine]; exact ha)]
      exact ⟨hleft.dev, hleft.reason, hleft.engine⟩
    · have hdev := openedDev_failed (w := w) hp htaken hq
      have hleft := openAnnounced_developed (n := n) (res := res) (more := more) (data := data) hdev hg hc hroom
      rw [openEngaged_busy (by rw [openedChecked_dev hdev]; exact DevStatus.noConfusion) (by rw [hleft.engine]; exact ha)]
      exact ⟨hleft.dev, hleft.reason, hleft.engine⟩

end

end Sys2Proof.Machine

open Sys2Proof Sys2Proof.Machine

set_option Elab.async false

/-- Settles O17. -/
theorem admittedOpenInitialisesShot : Obligations.AdmittedOpenInitialisesShot := by
  intro s r rest data w p n more htakes hspace hclass hstate hjudge hentry hfree hneed
  have hopened := openedChecked_tapKept (freeWriteSlot s rest) w p
  have hrecord := openedChecked_record (s := freeWriteSlot s rest) (w := w) (p := p)
  have hg : ((openedChecked (freeWriteSlot s rest) w p).mapsOf w).raw[0]? = some none := by
    have hraw : (s.mapsOf w).raw[0]? = some none := by
      have hsome : (s.mapsOf w).raw[0]? = some (s.mapsOf w).raw[0] := Vector.getElem?_eq_getElem (by decide)
      rw [State.rawEntry, hsome] at hentry
      rw [hsome]
      exact congrArg some hentry
    rw [State.mapsOf, hopened.maps]
    exact hraw
  have hfree' : (openedChecked (freeWriteSlot s rest) w p).pool.free = n :: more := by
    rw [hopened.free]
    exact hfree
  have hres : ((openedChecked (freeWriteSlot s rest) w p).shot w).reservation = (p.need - 1) + 1 := by
    have e := congrArg Shot.reservation hrecord
    rw [Nat.sub_add_cancel hneed]
    exact e
  have hadmit := admitOpen_eq (data := data) hg hfree' hres
  have hleft := openEngaged_left (n := n) (res := p.need - 1) (more := more) (data := data) hg
  have hengaged := openEngaged_engaged (n := n) (res := p.need - 1) (more := more) (data := data) hg
  have hexec : exec .takeWrite s = .next (judgeStopAtOpen (openEngaged (freeWriteSlot s rest) w p (openAnnounced (freeWriteSlot s rest) w p
      (openTapped (freeWriteSlot s rest) w p n more (p.need - 1) data)))) := by
    have hjudge' : judgeOpen (freeWriteSlot s rest) = .ok p := hjudge
    refine exec_takeWrite_some htakes ?_
    rw [writeTaken_shot _ data fullMask hspace, hclass, shotWrite_open (s := freeWriteSlot s rest) _ data hstate, openAttempt, hjudge']
    exact hadmit
  generalize openEngaged (freeWriteSlot s rest) w p (openAnnounced (freeWriteSlot s rest) w p
      (openTapped (freeWriteSlot s rest) w p n more (p.need - 1) data)) = t at hleft hengaged hexec
  obtain ⟨hshot, hothers, hmapped, hpool, hlens, hcounter, hlast, hnow⟩ := hleft
  have hrecords : (judgeStopAtOpen t).shots = t.shots := judgeStopAtOpen_field t State.shots
  have hfield {α : Type} (f : Shot → α) (x : Shot) (v : Fin 64) (h : readoutLeft (t.shot v) = readoutLeft x)
      (hf : ∀ y, f (readoutLeft y) = f y) : f ((judgeStopAtOpen t).shot v) = f x := by
    rw [State.shot, hrecords, ← hf, ← hf x]
    exact congrArg f h
  have hwindow {α : Type} (f : Shot → α) (hf : ∀ y, f (readoutLeft y) = f y := by intros; rfl) :
      f ((judgeStopAtOpen t).shot w) = f (rawMappedShot (openedShot (freeWriteSlot s rest) p) (p.need - 1)) :=
    hfield f _ w hshot hf
  have hengine : (judgeStopAtOpen t).engine = t.engine := judgeStopAtOpen_field t State.engine
  have htaps : (judgeStopAtOpen t).taps = t.taps := judgeStopAtOpen_field t State.taps
  refine ⟨judgeStopAtOpen t, hexec, hwindow Shot.state, hwindow Shot.seq, hwindow Shot.copy, hwindow Shot.rawLength,
    hwindow Shot.reservation, hwindow Shot.rawMapped, hwindow Shot.previewMapped, hwindow Shot.snapshot, hwindow Shot.timer,
    hwindow Shot.rating, hwindow Shot.storyKey, (judgeStopAtOpen_field t fun u => u.rawEntry w 0).trans hmapped,
    (judgeStopAtOpen_field t fun u => u.pool.free).trans hpool, (judgeStopAtOpen_field t fun u => u.table.seqCounter).trans hcounter,
    (judgeStopAtOpen_field t fun u => u.table.lastOpened).trans hlast, fun v hv => ?_, fun hc hroom => ?_, fun hl => ?_,
    fun report hl hr => ?_⟩
  · exact ⟨hfield Shot.state (s.shot v) v (hothers v hv) fun _ => rfl, hfield Shot.seq (s.shot v) v (hothers v hv) fun _ => rfl⟩
  · obtain ⟨hundeveloped, hinline, hbusy⟩ := hengaged hc hroom
    rw [State.shot, hrecords, hengine, htaps]
    exact ⟨hundeveloped, hinline, hbusy⟩
  · rw [judgeStopAtOpen_unready (by rw [hlens]; exact hl), hlens]
    rfl
  · have hjudged := judgeStopAtOpen_judged (s := t) (by rw [hlens]; exact hl) (by rw [hlens]; exact hr)
    rw [hlens, hnow] at hjudged
    obtain ⟨hstops, hwaits, hjudges, hrests⟩ := hjudged
    exact ⟨fun hm => ⟨hstops hm, hwaits hm⟩, fun hm => ⟨hjudges hm, hrests hm⟩⟩

end

section
/-! PROOFS. The seal of a shot: its record, its development, its tether status and its reservation (O39). -/

namespace Sys2Proof.Machine

set_option Elab.async false

/-! ### The record of a seal (R37 steps 1 and 2) -/

/-- R37: the record of a sealed shot, with the tap's verdict and its checksum. -/
def sealedShot (x : Shot) (complete : Bool) (value : BitVec 32) : Shot :=
  { x with
    state := .sealed
    timer := .stopped
    tapStatus := if x.tapStatus = .inOrder ∧ complete = false then .incomplete else x.tapStatus
    crc := if x.tapStatus = .inOrder ∧ complete = true then some (value, .inline) else x.crc }

/-- R35: the tap of window w, under profile p, has received the whole frame in order (`complete`), with checksum `value`. -/
structure TapVerdict (s : State) (w : Fin 64) (p : Profile) (complete : Bool) (value : BitVec 32) : Prop where
  profile : (s.shot w).profile = some p
  whole : complete = ((contextOf s w).map fun c => c.following && decide (c.next = p.lines)).getD false
  sum : complete = true → value = ((contextOf s w).map fun c => crcFinish c.crc).getD 0

/-- The record sealed and the context unbound. -/
def sealBase (s : State) (w : Fin 64) (complete : Bool) (value : BitVec 32) : State :=
  unbindContext (s.setShot w (sealedShot (s.shot w) complete value)) w

section
variable {s : State} {w : Fin 64} {p : Profile} {complete : Bool} {value : BitVec 32}

theorem sealRecord_base (h : TapVerdict s w p complete value) : sealRecord s w = sealBase s w complete value := by
  obtain ⟨hp, hcomplete, hvalue⟩ := h
  have hrecord : sealRecord s w = unbindContext (s.setShot w { s.shot w with
      state := .sealed
      timer := .stopped
      tapStatus := if (s.shot w).tapStatus = .inOrder && !complete then .incomplete else (s.shot w).tapStatus
      crc := if (s.shot w).tapStatus = .inOrder && complete then
          ((contextOf s w).map fun c => crcFinish c.crc).map fun v => (v, .inline)
        else (s.shot w).crc }) w := by
    rw [hcomplete]
    unfold sealRecord tapComplete State.modShot
    cases hc : contextOf s w with
    | none => simp only [Option.map_none, Option.getD_none]
    | some c => simp only [hp, Option.map_some, Option.getD_some]
  rw [hrecord, sealBase, sealedShot]
  cases hcase : complete with
  | false => simp
  | true =>
    have hc : ((contextOf s w).map fun c => crcFinish c.crc).map (fun v => (v, Origin.inline)) = some (value, .inline) := by
      rw [hvalue hcase]
      rw [hcase] at hcomplete
      cases hctx : contextOf s w with
      | none => rw [hctx] at hcomplete; exact Bool.noConfusion hcomplete
      | some c => rfl
    rw [hc]
    simp

theorem sealBase_shot : (sealBase s w complete value).shot w = sealedShot (s.shot w) complete value := State.shot_setShot_same s w _

theorem sealBase_other {v : Fin 64} (hv : v ≠ w) : (sealBase s w complete value).shot v = s.shot v := State.shot_setShot_other s w v _ hv

theorem sealBase_context : contextOf (sealBase s w complete value) w = none := unbindContext_contextOf _ w

/-- R37: the sealed record has been written back. -/
def sealRecorded (s : State) (w : Fin 64) : State := mirrorChanged (sealRecord s w) w (s.shot w)

theorem sealRecorded_reported (h : TapVerdict s w p complete value) : Reported (sealBase s w complete value) (sealRecorded s w) := by
  rw [sealRecorded, sealRecord_base h]
  exact mirrorChanged_reported _ w _

/-- R63, R37 step 3: the tap status becomes INCOMPLETE. -/
def endsIncomplete (s : State) (w : Fin 64) (complete : Bool) : Prop := (s.shot w).tapStatus = .inOrder ∧ complete = false

theorem sealRecorded_retasked (h : TapVerdict s w p complete value) :
    Retasked (sealBase s w complete value) (sealRecorded s w) w (sealedShot (s.shot w) complete value) s.engine.queue :=
  ((Retasked.refl (sealBase s w complete value) w).of_reported (sealRecorded_reported h)).congr sealBase_shot

/-! ### The engine's part of a seal (R37 steps 3 and 4) -/

/-- R37 step 3: INLINE work of an INCOMPLETE shot fails. -/
def sealDropped (s : State) (w : Fin 64) : State :=
  if (s.shot w).dev = .inline then failDev (abandonInline (sealRecorded s w) w) w .incomplete else sealRecorded s w

theorem sealWork_complete (h : TapVerdict s w p complete value) (hno : ¬endsIncomplete s w complete) :
    sealWork s w = (sealRecorded s w, false) := by
  have hstatus : ((sealRecorded s w).shot w).tapStatus = (s.shot w).tapStatus := by
    rw [(sealRecorded_retasked h).shot]
    exact if_neg hno
  have hincomplete : (decide ((s.shot w).tapStatus = .inOrder) && decide (((sealRecorded s w).shot w).tapStatus = .incomplete)) = false := by
    rw [hstatus]
    cases (s.shot w).tapStatus <;> rfl
  rw [sealRecorded] at hincomplete
  simp only [sealWork, hincomplete, Bool.false_and, Bool.false_eq_true, if_false]
  rfl

theorem sealWork_incomplete (h : TapVerdict s w p complete value) (hin : endsIncomplete s w complete) :
    sealWork s w = offerCheck (sealDropped s w) w := by
  have hstatus : ((sealRecorded s w).shot w).tapStatus = .incomplete := by
    rw [(sealRecorded_retasked h).shot]
    exact if_pos hin
  have hincomplete : (decide ((s.shot w).tapStatus = .inOrder) && decide (((sealRecorded s w).shot w).tapStatus = .incomplete)) = true := by
    rw [hstatus, hin.1]
    rfl
  rw [sealRecorded] at hincomplete
  simp only [sealWork, hincomplete, Bool.true_and, if_true, sealDropped, sealRecorded, decide_eq_true_eq]

/-- A record but for its development. -/
def developmentLeft (x : Shot) : Shot :=
  { x with dev := .none, reason := none, checkOnly := false, hist := zeroHist, clip := ⟨0, 0, 0⟩ }

/-- What dropping inline work leaves. -/
structure WorkDropped (s t : State) : Prop where
  shots : t.shots = s.shots
  maps : t.maps = s.maps
  pool : t.pool = s.pool
  contexts : t.taps.contexts = s.taps.contexts
  tether : t.tether = s.tether
  queue : t.engine.queue = s.engine.queue
  reads : t.port.reads = s.port.reads
  held : t.port.heldReads = s.port.heldReads
  now : t.now = s.now

theorem WorkDropped.of_reported {s t u : State} (h : WorkDropped s t) (k : Reported t u) : WorkDropped s u :=
  ⟨(k.field State.shots).trans h.shots, (k.field State.maps).trans h.maps, (k.field State.pool).trans h.pool,
    (k.field fun r => r.taps.contexts).trans h.contexts, (k.field State.tether).trans h.tether,
    (k.field fun r => r.engine.queue).trans h.queue, (k.portField MemoryPort.reads).trans h.reads,
    (k.portField MemoryPort.heldReads).trans h.held, (k.field State.now).trans h.now⟩

theorem abandonInline_dropped (s : State) (w : Fin 64) : WorkDropped s (abandonInline s w) := by
  by_cases h : s.engine.activity = .inline w
  · have hdropped : abandonInline s w = engineIdle (dropPreviewWork
        { s with taps := { s.taps with fifo := s.taps.fifo.filter fun e => e.window ≠ w } }) := if_pos h
    have hkept : WorkDropped s (dropPreviewWork { s with taps := { s.taps with fifo := s.taps.fifo.filter fun e => e.window ≠ w } }) :=
      ⟨rfl, rfl, rfl, rfl, rfl, rfl, rfl, rfl, rfl⟩
    rw [hdropped]
    generalize dropPreviewWork _ = t at hkept
    obtain ⟨h1, h2, h3, h4, h5, h6, h7, h8, h9⟩ := hkept
    have hidle : WorkDropped s (t.setEngine (idleEngine t.engine)) := ⟨h1, h2, h3, h4, h5, h6, h7, h8, h9⟩
    exact hidle.of_reported (engineIdle_reported t)
  · rw [abandonInline_waiting h]
    exact ⟨rfl, rfl, rfl, rfl, rfl, rfl, rfl, rfl, rfl⟩

/-- The state in which the INCOMPLETE shot's development is settled. -/
def sealEngineBase (s : State) (w : Fin 64) : State :=
  if (s.shot w).dev = .inline then abandonInline (sealRecorded s w) w else sealRecorded s w

/-- The record of an INCOMPLETE shot whose inline work has failed. -/
def droppedShot (x : Shot) : Shot := if x.dev = .inline then failedShot x (some .incomplete) else x

theorem sealEngineBase_dropped (s : State) (w : Fin 64) : WorkDropped (sealRecorded s w) (sealEngineBase s w) := by
  unfold sealEngineBase
  split
  · exact abandonInline_dropped _ w
  · exact ⟨rfl, rfl, rfl, rfl, rfl, rfl, rfl, rfl, rfl⟩

theorem sealDropped_retasked (h : TapVerdict s w p complete value) :
    Retasked (sealEngineBase s w) (sealDropped s w) w (droppedShot (sealedShot (s.shot w) complete value)) s.engine.queue := by
  have hrecorded := sealRecorded_retasked h
  have hdropped := sealEngineBase_dropped s w
  have hbase : (sealEngineBase s w).shot w = sealedShot (s.shot w) complete value :=
    (congrArg (·.get w) hdropped.shots).trans hrecorded.shot
  have hqueue : (sealEngineBase s w).engine.queue = s.engine.queue := hdropped.queue.trans hrecorded.queue
  by_cases hdev : (s.shot w).dev = .inline
  · have hfailed := failDev_retasked (sealEngineBase s w) w .incomplete
    rw [hbase, hqueue] at hfailed
    have hseal : sealDropped s w = failDev (sealEngineBase s w) w .incomplete := by
      rw [sealDropped, sealEngineBase, if_pos hdev, if_pos hdev]
    rw [hseal]
    exact hfailed.congr (if_pos hdev).symm
  · have hrefl := Retasked.refl (sealEngineBase s w) w
    rw [hbase, hqueue] at hrefl
    have hseal : sealDropped s w = sealEngineBase s w := by rw [sealDropped, sealEngineBase, if_neg hdev, if_neg hdev]
    rw [hseal]
    exact hrefl.congr (if_neg hdev).symm

/-- The frame of the engine's part of a seal. -/
structure SealKept (s t : State) (w : Fin 64) (x : Shot) : Prop where
  left : developmentLeft (t.shot w) = developmentLeft x
  others : ∀ v, v ≠ w → t.shot v = s.shot v
  maps : t.maps = s.maps
  pool : t.pool = s.pool
  context : contextOf t w = none
  reads : t.port.reads = s.port.reads
  held : t.port.heldReads = s.port.heldReads
  rules : t.tether.rules = s.tether.rules
  entries : (∀ e ∈ s.tether.queue, e.window ≠ w) → t.tether.queue = s.tether.queue
  now : t.now = s.now

theorem sealRecorded_kept (h : TapVerdict s w p complete value) :
    SealKept s (sealRecorded s w) w (sealedShot (s.shot w) complete value) where
  left := by rw [(sealRecorded_retasked h).shot]
  others v hv := ((sealRecorded_retasked h).others v hv).trans (sealBase_other hv)
  maps := (sealRecorded_retasked h).maps
  pool := (sealRecorded_retasked h).pool
  context := (contextOf_congr (by rw [(sealRecorded_retasked h).taps]) w).trans sealBase_context
  reads := (sealRecorded_retasked h).reads
  held := (sealRecorded_retasked h).held
  rules := (sealRecorded_retasked h).rules
  entries := (sealRecorded_retasked h).entries
  now := (sealRecorded_retasked h).now

theorem Retasked.sealKept {a t : State} {x y : Shot} {q : List Job} (h : Retasked a t w y q) (hb : WorkDropped (sealRecorded s w) a)
    (hr : SealKept s (sealRecorded s w) w x) (hy : developmentLeft y = developmentLeft x) : SealKept s t w x where
  left := by rw [h.shot]; exact hy
  others v hv := (h.others v hv).trans ((congrArg (·.get v) hb.shots).trans (hr.others v hv))
  maps := h.maps.trans (hb.maps.trans hr.maps)
  pool := h.pool.trans (hb.pool.trans hr.pool)
  context := (contextOf_congr (by rw [h.taps, hb.contexts]) w).trans hr.context
  reads := h.reads.trans (hb.reads.trans hr.reads)
  held := h.held.trans (hb.held.trans hr.held)
  rules := h.rules.trans (by rw [hb.tether]; exact hr.rules)
  entries hno := by
    have hqueue := hr.entries hno
    rw [← hb.tether] at hqueue
    exact (h.entries (by rw [hqueue]; exact hno)).trans hqueue
  now := h.now.trans (hb.now.trans hr.now)

theorem developmentLeft_dropped (x : Shot) : developmentLeft (droppedShot x) = developmentLeft x := by
  unfold droppedShot
  split <;> rfl

theorem sealWork_kept (h : TapVerdict s w p complete value) :
    SealKept s (sealWork s w).1 w (sealedShot (s.shot w) complete value) := by
  have hrecorded := sealRecorded_kept h
  by_cases hin : endsIncomplete s w complete
  · rw [sealWork_incomplete h hin]
    have hdropped := sealDropped_retasked h
    have hbase := sealEngineBase_dropped s w
    obtain hroom | hfull := Nat.lt_or_ge (sealDropped s w).engine.queue.length 16
    · by_cases hneeded : ((sealDropped s w).shot w).crc = none ∧ hasJob (sealDropped s w) w = false
      · have hoffer := offerCheck_room hneeded.1 hneeded.2 hroom
        exact (hdropped.trans hoffer).sealKept hbase hrecorded
          ((congrArg developmentLeft hdropped.shot).trans (developmentLeft_dropped _))
      · rw [offerCheck_unneeded (by simpa [or_iff_not_imp_left] using hneeded)]
        exact hdropped.sealKept hbase hrecorded (developmentLeft_dropped _)
    · rw [offerCheck_kept (.inr (.inr hfull))]
      exact hdropped.sealKept hbase hrecorded (developmentLeft_dropped _)
  · rw [sealWork_complete h hin]
    exact hrecorded

/-- A tap status that does not become INCOMPLETE leaves development, engine and FIFO. -/
theorem sealWork_steady (h : TapVerdict s w p complete value) (hno : ¬endsIncomplete s w complete) :
    (sealWork s w).1.shot w = sealedShot (s.shot w) complete value ∧ (sealWork s w).1.engine = s.engine ∧
      (sealWork s w).1.taps.fifo = s.taps.fifo := by
  rw [sealWork_complete h hno]
  have hrecorded := sealRecorded_retasked h
  exact ⟨hrecorded.shot, hrecorded.engine, by rw [hrecorded.taps]; rfl⟩

/-- Unless the inline work of the shot itself is dropped, the engine goes on. -/
theorem sealWork_running (h : TapVerdict s w p complete value) (ha : s.engine.activity ≠ .inline w ∨ ¬endsIncomplete s w complete) :
    (sealWork s w).1.engine.activity = s.engine.activity := by
  have hrecorded := sealRecorded_retasked h
  by_cases hin : endsIncomplete s w complete
  · have hactivity := ha.resolve_right fun hno => hno hin
    have hbase : (sealEngineBase s w).engine.activity = s.engine.activity := by
      unfold sealEngineBase
      split
      · rw [abandonInline_waiting (by rw [hrecorded.activity]; exact hactivity)]
        exact hrecorded.activity
      · exact hrecorded.activity
    obtain ⟨x, q, hoffer⟩ := offerCheck_retasked (sealDropped s w) w
    rw [sealWork_incomplete h hin, hoffer.activity, (sealDropped_retasked h).activity, hbase]
  · rw [(sealWork_steady h hin).2.1]

theorem droppedShot_dev (x : Shot) : (droppedShot x).dev = (if x.dev = .inline then .failed else x.dev) ∧
    (droppedShot x).reason = if x.dev = .inline then some .incomplete else x.reason := by
  unfold droppedShot
  split
  · exact ⟨rfl, rfl⟩
  · exact ⟨rfl, rfl⟩

theorem droppedShot_kept (x : Shot) : (droppedShot x).crc = x.crc ∧ (droppedShot x).seq = x.seq ∧ (droppedShot x).devSet = x.devSet := by
  unfold droppedShot
  split
  · exact ⟨rfl, rfl, rfl⟩
  · exact ⟨rfl, rfl, rfl⟩

/-- R37 step 4: an INCOMPLETE shot without CRC and job is given a CHECK job. -/
theorem sealWork_check (h : TapVerdict s w p complete value) (hin : endsIncomplete s w complete) (hcrc : (s.shot w).crc = none)
    (hjob : hasJob s w = false) (hroom : s.engine.queue.length < 16) :
    ((sealWork s w).1.shot w).dev = .queued ∧ ((sealWork s w).1.shot w).checkOnly = true ∧
      ((sealWork s w).1.shot w).reason = (if (s.shot w).dev = .inline then some .incomplete else (s.shot w).reason) ∧
      (sealWork s w).1.engine.queue = s.engine.queue ++ [offeredJob w (s.shot w) .check] := by
  have hdropped := sealDropped_retasked h
  have hcomplete : complete ≠ true := by rw [hin.2]; exact Bool.false_ne_true
  have hsealed : (sealedShot (s.shot w) complete value).crc = none := by
    rw [sealedShot]
    exact (if_neg fun k => hcomplete k.2).trans hcrc
  obtain ⟨hkeptCrc, hkeptSeq, hkeptSet⟩ := droppedShot_kept (sealedShot (s.shot w) complete value)
  have hoffer := offerCheck_room (s := sealDropped s w) (w := w) (by rw [hdropped.shot, hkeptCrc]; exact hsealed)
    (by rw [hasJob, hdropped.queue]; exact hjob) (by rw [hdropped.queue]; exact hroom)
  rw [sealWork_incomplete h hin]
  have hoffered : offeredJob w ((sealDropped s w).shot w) .check = offeredJob w (s.shot w) .check := by
    rw [hdropped.shot, offeredJob, hkeptSeq, hkeptSet]
    rfl
  refine ⟨by rw [hoffer.shot], by rw [hoffer.shot], ?_, by rw [hoffer.queue, hdropped.queue, hoffered]⟩
  rw [hoffer.shot]
  exact (congrArg Shot.reason hdropped.shot).trans (droppedShot_dev _).2

/-- R37 step 4: a full replay queue takes no CHECK job. -/
theorem sealWork_full (h : TapVerdict s w p complete value) (hin : endsIncomplete s w complete) (hfull : 16 ≤ s.engine.queue.length) :
    ((sealWork s w).1.shot w).dev = (if (s.shot w).dev = .inline then .failed else (s.shot w).dev) ∧
      ((sealWork s w).1.shot w).reason = (if (s.shot w).dev = .inline then some .incomplete else (s.shot w).reason) ∧
      (sealWork s w).1.engine.queue = s.engine.queue := by
  have hdropped := sealDropped_retasked h
  obtain ⟨hdev, hreason⟩ := droppedShot_dev (sealedShot (s.shot w) complete value)
  rw [sealWork_incomplete h hin, offerCheck_kept (.inr (.inr (by rw [hdropped.queue]; exact hfull))), hdropped.shot]
  exact ⟨hdev, hreason, hdropped.queue⟩

end

/-! ### Reservation and statuses (R37 steps 5 to 7) -/

/-- R14, R16, R37 steps 5 to 7: the record with reservation returned and statuses set. -/
def statusShot (x : Shot) (p : Profile) : Shot :=
  { x with
    reservation := x.reservation - sealReturn x
    card := if p.cardRequired then .pending else .notRequired
    verify := .none
    tether := if p.tetherEvaluated then .undecided else .notRequired }

/-- The shot in window w has become x, and nothing else of shots, maps, granules, engine, taps, reads and tether queue has changed. -/
structure ShotBecame (s t : State) (w : Fin 64) (x : Shot) : Prop extends JobOver s t w x s.engine where
  tether : t.tether = s.tether
  now : t.now = s.now

theorem ShotBecame.refl (s : State) (w : Fin 64) : ShotBecame s s w (s.shot w) := ⟨.refl s w, rfl, rfl⟩

theorem ShotBecame.of_reported {s t u : State} {w : Fin 64} {x : Shot} (h : ShotBecame s t w x) (k : Reported t u) :
    ShotBecame s u w x := ⟨h.toJobOver.of_reported k, (k.field State.tether).trans h.tether, (k.field State.now).trans h.now⟩

theorem ShotBecame.record {s t : State} {w : Fin 64} {x : Shot} (h : ShotBecame s t w x) (y : Shot) :
    ShotBecame s (t.setShot w y) w y := ⟨h.toJobOver.record y, h.tether, h.now⟩

theorem ShotBecame.recounted {s t : State} {w : Fin 64} {x : Shot} (h : ShotBecame s t w x) (a : Bool) (c : Option (Fin 64)) (f : Bool) :
    ShotBecame s (recounted t a c f) w x := ⟨h.toJobOver.recounted a c f, h.tether, h.now⟩

theorem ShotBecame.congr {s t : State} {w : Fin 64} {x y : Shot} (h : ShotBecame s t w x) (hx : x = y) : ShotBecame s t w y := hx ▸ h

theorem returnReservation_became (s : State) (w : Fin 64) (n : Nat) :
    ShotBecame s (returnReservation s w n) w { s.shot w with reservation := (s.shot w).reservation - n } := by
  unfold returnReservation
  split
  · next hn =>
    rw [hn]
    exact .refl s w
  · obtain ⟨a, c, f, hrep⟩ := poolChanged_reported s (mirror (s.modShot w fun x => { x with reservation := x.reservation - n }) w [1])
    exact ((((ShotBecame.refl s w).record { s.shot w with reservation := (s.shot w).reservation - n }).of_reported
      (mirror_reported _ w [1])).recounted a c f).of_reported hrep

theorem sealStatuses_became {s t : State} {w : Fin 64} {x : Shot} {p : Profile} (h : ShotBecame s t w x) (hp : x.profile = some p) :
    ShotBecame s (sealStatuses t w) w { x with
      card := if p.cardRequired then .pending else .notRequired
      verify := .none
      tether := if p.tetherEvaluated then .undecided else .notRequired } := by
  have hrecord := h.record { t.shot w with
    card := if ((t.shot w).profile.map Profile.cardRequired).getD false then .pending else .notRequired
    verify := .none
    tether := if ((t.shot w).profile.map Profile.tetherEvaluated).getD false then .undecided else .notRequired }
  have hreported : Reported _ (sealStatuses t w) := mirrorChanged_reported _ w (t.shot w)
  exact (hrecord.of_reported hreported).congr (by rw [h.shot, hp]; rfl)

/-- The statuses of a sealed shot are set. -/
def sealPrepared (t : State) (w : Fin 64) : State := sealStatuses (returnReservation t w (sealReturn (t.shot w))) w

theorem sealPrepared_became {t : State} {w : Fin 64} {p : Profile} (hp : (t.shot w).profile = some p) :
    ShotBecame t (sealPrepared t w) w (statusShot (t.shot w) p) :=
  sealStatuses_became (returnReservation_became t w _) hp

/-! ### The selection table (R152, R153) -/

/-- The record x put under the selection table of s where it is UNDECIDED with its inputs. -/
def verdictShot (s : State) (x : Shot) : Shot :=
  if x.tether = .undecided ∧ x.inputsPresent = true then
    match selected s x with
    | none => { x with tether := .notSelected, sendWhat := none }
    | some send => joinedShot x (degrade x send)
  else x

/-- The tether queue of s once the record x in window w has been put under the table. -/
def verdictQueue (s : State) (w : Fin 64) (x : Shot) : List TetherEntry :=
  if x.tether = .undecided ∧ x.inputsPresent = true then
    match selected s x with
    | none => s.tether.queue
    | some send => insertEntry s.tether.queue (joinedEntry w x (degrade x send) false)
  else s.tether.queue

theorem evaluateUndecided_verdict {s : State} {w : Fin 64} (hs : (s.shot w).state = .sealed) :
    JobOver s (evaluateUndecided s w) w (verdictShot s (s.shot w)) s.engine ∧
      (evaluateUndecided s w).tether.queue = verdictQueue s w (s.shot w) ∧ (evaluateUndecided s w).now = s.now := by
  unfold verdictShot verdictQueue
  by_cases h : (s.shot w).tether = .undecided ∧ (s.shot w).inputsPresent = true
  · rw [evaluateUndecided_applies hs h.1 h.2, if_pos h, if_pos h]
    cases hsel : selected s (s.shot w) with
    | none =>
      have hreported : Reported (s.setShot w { s.shot w with tether := .notSelected, sendWhat := none }) (evaluateShot s w) := by
        rw [evaluateShot_rejects hsel]
        exact mirror_reported _ w [5]
      have hrecord := (JobOver.refl s w).record { s.shot w with tether := .notSelected, sendWhat := none }
      exact ⟨hrecord.of_reported hreported, hreported.field fun u => u.tether.queue, hreported.field State.now⟩
    | some send =>
      have hreported : Reported (headSet (queueJoined s w (degrade (s.shot w) send) false)) (evaluateShot s w) := by
        rw [evaluateShot_joins hsel]
        exact joinQueue_reported s w _ false
      have hrecord := (JobOver.refl s w).record (joinedShot (s.shot w) (degrade (s.shot w) send))
      have hjoined : JobOver s (headSet (queueJoined s w (degrade (s.shot w) send) false)) w
          (joinedShot (s.shot w) (degrade (s.shot w) send)) s.engine :=
        ⟨hrecord.shot, hrecord.others, hrecord.maps, hrecord.free, hrecord.taps, hrecord.engine, hrecord.reads, hrecord.held⟩
      exact ⟨hjoined.of_reported hreported, hreported.field fun u => u.tether.queue, hreported.field State.now⟩
  · rw [evaluateUndecided_waits fun ⟨_, ht, hi⟩ => h ⟨ht, hi⟩, if_neg h, if_neg h]
    exact ⟨.refl s w, rfl, rfl⟩

/-- What the table leaves of a record. -/
theorem verdictShot_kept (s : State) (x : Shot) :
    { verdictShot s x with tether := x.tether, sendWhat := x.sendWhat, tetherRaw := x.tetherRaw, tetherPreview := x.tetherPreview } = x := by
  unfold verdictShot
  split
  · split <;> rfl
  · rfl

theorem verdictShot_field {α : Type} (s : State) (x : Shot) (f : Shot → α)
    (hf : ∀ (y : Shot) (t : TetherStatus) (w : Option SendWhat) (m n : Nat),
      f { y with tether := t, sendWhat := w, tetherRaw := m, tetherPreview := n } = f y := by intros; rfl) :
    f (verdictShot s x) = f x := by
  have e := congrArg f (verdictShot_kept s x)
  rw [hf] at e
  exact e

theorem verdictShot_waits {s : State} {x : Shot} (h : ¬(x.tether = .undecided ∧ x.inputsPresent = true)) : verdictShot s x = x := if_neg h

theorem verdictShot_congr {s t : State} (h : t.tether.rules = s.tether.rules) (x : Shot) : verdictShot t x = verdictShot s x := by
  simp only [verdictShot, selected_congr h]

/-! ### The seal as a whole (R37, R43, R127) -/

section
variable {s : State} {w : Fin 64} {p : Profile} {complete : Bool} {value : BitVec 32}

theorem sealReported_reported (s : State) (w : Fin 64) (cause : SealCause) : Reported (sealSettled s w) (sealReported s w cause) := by
  have hnotified : Reported (sealSettled s w) (sealNotified s w cause) := shotNotice_reported _ _ _ _ _ _
  have hdropped (c : Bool) : Reported (sealNotified s w cause)
      (if c = true then developFailed (sealNotified s w cause) w .incomplete none else sealNotified s w cause) :=
    .ite (fun _ => shotNotice_reported _ _ _ _ _ _) fun _ => .refl _
  exact (hnotified.trans (hdropped _)).trans (jobsNotTaken_reported _ w false (sealWork s w).2)

/-- The record that a seal leaves, but for what an IDLE engine then begins. -/
def sealEnd (s : State) (w : Fin 64) (p : Profile) : Shot := verdictShot s (statusShot ((sealWork s w).1.shot w) p)

/-- What a seal leaves before the release check. -/
structure SealLeft (s t : State) (w : Fin 64) (p : Profile) : Prop where
  shot : t.shot w = sealEnd s w p
  others : ∀ v, v ≠ w → t.shot v = s.shot v
  maps : t.maps = s.maps
  free : t.pool.free = s.pool.free
  context : contextOf t w = none
  reads : t.port.reads = s.port.reads
  held : t.port.heldReads = s.port.heldReads
  engine : t.engine = (sealWork s w).1.engine
  fifo : t.taps.fifo = (sealWork s w).1.taps.fifo
  entries : (∀ e ∈ s.tether.queue, e.window ≠ w) → t.tether.queue = verdictQueue s w (statusShot ((sealWork s w).1.shot w) p)
  now : t.now = s.now

theorem sealWork_fields (h : TapVerdict s w p complete value) : ((sealWork s w).1.shot w).profile = some p ∧
    ((sealWork s w).1.shot w).state = .sealed := by
  have hleft := (sealWork_kept h).left
  have hprofile := congrArg Shot.profile hleft
  have hstate := congrArg Shot.state hleft
  exact ⟨hprofile.trans h.profile, hstate⟩

theorem sealReported_left (h : TapVerdict s w p complete value) (cause : SealCause) : SealLeft s (sealReported s w cause) w p := by
  have hwork := sealWork_kept h
  obtain ⟨hprofile, hstate⟩ := sealWork_fields h
  have hprepared := sealPrepared_became hprofile
  have hreported := sealReported_reported s w cause
  have hsettled : sealSettled s w = evaluateUndecided (sealPrepared (sealWork s w).1 w) w := rfl
  have hrules : (sealPrepared (sealWork s w).1 w).tether.rules = s.tether.rules := by rw [hprepared.tether, hwork.rules]
  have hsealed : ((sealPrepared (sealWork s w).1 w).shot w).state = .sealed := by rw [hprepared.shot]; exact hstate
  obtain ⟨hover, hqueue, hnow⟩ := evaluateUndecided_verdict hsealed
  rw [← hsettled] at hover hqueue hnow
  have hall := hover.of_reported hreported
  have hqueue' := (hreported.field fun u => u.tether.queue).trans hqueue
  rw [hprepared.shot] at hall hqueue'
  refine ⟨hall.shot.trans (verdictShot_congr hrules _), fun v hv => ?_, ?_, ?_, ?_, ?_, ?_, ?_, ?_, fun hno => ?_,
    (hreported.field State.now).trans (hnow.trans (hprepared.now.trans hwork.now))⟩
  · exact (hall.others v hv).trans ((hprepared.others v hv).trans (hwork.others v hv))
  · exact hall.maps.trans (hprepared.maps.trans hwork.maps)
  · exact hall.free.trans (hprepared.free.trans (by rw [hwork.pool]))
  · exact (contextOf_congr (by rw [hall.taps, hprepared.taps]) w).trans hwork.context
  · exact hall.reads.trans (hprepared.reads.trans hwork.reads)
  · exact hall.held.trans (hprepared.held.trans hwork.held)
  · exact hall.engine.trans hprepared.engine
  · rw [hall.taps, hprepared.taps]
  · rw [hqueue']
    simp only [verdictQueue, selected_congr hrules, hprepared.tether, hwork.entries hno]

theorem sealEnd_work {α : Type} (f : Shot → α)
    (hf : ∀ (y : Shot) (r : Nat) (c : CardStatus) (v : VerifyStatus) (t : TetherStatus) (d : Option SendWhat) (m n : Nat),
      f { y with reservation := r, card := c, verify := v, tether := t, sendWhat := d, tetherRaw := m, tetherPreview := n } = f y :=
        by intros; rfl) :
    f (sealEnd s w p) = f ((sealWork s w).1.shot w) := by
  have e := verdictShot_kept s (statusShot ((sealWork s w).1.shot w) p)
  have hverdict := congrArg f e
  rw [sealEnd]
  generalize verdictShot s (statusShot ((sealWork s w).1.shot w) p) = y at hverdict
  exact (hf y y.reservation y.card y.verify _ _ _ _).symm.trans (hverdict.trans
    (hf ((sealWork s w).1.shot w) _ _ _ _ ((sealWork s w).1.shot w).sendWhat ((sealWork s w).1.shot w).tetherRaw
      ((sealWork s w).1.shot w).tetherPreview))

theorem sealEnd_record (h : TapVerdict s w p complete value) {α : Type} (f : Shot → α)
    (hf : ∀ (y : Shot) (r : Nat) (c : CardStatus) (v : VerifyStatus) (t : TetherStatus) (d : Option SendWhat) (m n : Nat),
      f { y with reservation := r, card := c, verify := v, tether := t, sendWhat := d, tetherRaw := m, tetherPreview := n } = f y :=
        by intros; rfl)
    (hd : ∀ y, f (developmentLeft y) = f y := by intros; rfl) : f (sealEnd s w p) = f (sealedShot (s.shot w) complete value) := by
  rw [sealEnd_work f hf, ← hd, (sealWork_kept h).left, hd]

/-- R37 steps 6 and 7 before the table. -/
theorem sealEnd_statuses : (sealEnd s w p).card = (if p.cardRequired then .pending else .notRequired) ∧
    (sealEnd s w p).verify = .none :=
  ⟨verdictShot_field s _ Shot.card, verdictShot_field s _ Shot.verify⟩

theorem sealEnd_kept (h : TapVerdict s w p complete value) (hk : p.cardRequired = true ∨ (s.shot w).protect = true) :
    (sealEnd s w p).releasable = false := by
  obtain hcard | hprotect := hk
  · refine releasable_pending ?_
    rw [sealEnd_statuses.1, hcard]
    rfl
  · have hflag : (sealEnd s w p).protect = true := (sealEnd_record h Shot.protect).trans hprotect
    simp [Shot.releasable, hflag]

theorem sealShot_kept (h : TapVerdict s w p complete value) (hk : p.cardRequired = true ∨ (s.shot w).protect = true) (cause : SealCause) :
    sealShot s w cause = capturingFell (engineChoose (sealReported s w cause)) := by
  have hleft := sealReported_left h cause
  rw [sealShot_eq, releaseCheck_kept fun _ => by rw [hleft.shot]; exact sealEnd_kept h hk]

/-- R16: the reservation that a seal leaves. -/
theorem sealEnd_reservation (h : TapVerdict s w p complete value) : (sealEnd s w p).reservation =
    if (sealEnd s w p).dev = .inline ∨ (((sealEnd s w p).dev = .queued ∨ (sealEnd s w p).dev = .replaying) ∧
        (sealEnd s w p).checkOnly = false)
    then (s.shot w).reservation - (p.rawGranules - (s.shot w).rawMapped) else 0 := by
  have hleft := (sealWork_kept h).left
  have hreserved : ((sealWork s w).1.shot w).reservation = (s.shot w).reservation := by
    have e := congrArg Shot.reservation hleft
    exact e
  have hmapped : ((sealWork s w).1.shot w).rawMapped = (s.shot w).rawMapped := by
    have e := congrArg Shot.rawMapped hleft
    exact e
  have hend : (sealEnd s w p).reservation = (s.shot w).reservation - sealReturn ((sealWork s w).1.shot w) := by
    rw [← hreserved]
    exact verdictShot_field s _ Shot.reservation
  rw [hend, sealEnd_work Shot.dev, sealEnd_work Shot.checkOnly, sealReturn, hreserved, hmapped, (sealWork_fields h).1]
  generalize (sealWork s w).1.shot w = x
  by_cases hkeeps : x.dev = .inline ∨ ((x.dev = .queued ∨ x.dev = .replaying) ∧ x.checkOnly = false)
  · rw [if_pos hkeeps, if_pos (by simpa using hkeeps), Option.map_some, Option.getD_some]
    omega
  · rw [if_neg hkeeps, if_neg (by simpa using hkeeps), Nat.sub_self]

theorem inputsPresent_iff {x : Shot} : x.inputsPresent = true ↔ x.focusCheck ≠ none ∧ x.dev ≠ .queued ∧ x.dev ≠ .replaying := by
  simp [Shot.inputsPresent, Option.isSome_iff_ne_none]

/-- R152: the tether status of a shot that the table leaves UNDECIDED. -/
theorem sealEnd_undecided (h : TapVerdict s w p complete value) (hp : p.tetherEvaluated = true)
    (hno : (s.shot w).focusCheck = none ∨ (sealEnd s w p).dev = .queued ∨ (sealEnd s w p).dev = .replaying) :
    (sealEnd s w p).tether = .undecided := by
  have hfocus : (sealEnd s w p).focusCheck = (s.shot w).focusCheck := sealEnd_record h Shot.focusCheck
  have hwaits : ¬((statusShot ((sealWork s w).1.shot w) p).tether = .undecided ∧
      (statusShot ((sealWork s w).1.shot w) p).inputsPresent = true) := fun ⟨_, hi⟩ => by
    obtain ⟨hf, hq, hr⟩ := inputsPresent_iff.mp hi
    rw [sealEnd_work Shot.focusCheck] at hfocus
    rw [sealEnd_work Shot.dev] at hno
    obtain hn | hn | hn := hno
    · exact hf (hfocus.trans hn)
    · exact hq hn
    · exact hr hn
  rw [sealEnd, verdictShot_waits hwaits, statusShot, hp]
  rfl

theorem sealEnd_unrequired (hp : p.tetherEvaluated = false) : (sealEnd s w p).tether = .notRequired := by
  have htether : (statusShot ((sealWork s w).1.shot w) p).tether = .notRequired := by
    rw [statusShot, hp]
    rfl
  rw [sealEnd, verdictShot_waits fun ⟨ht, _⟩ => TetherStatus.noConfusion (htether.symm.trans ht), htether]

/-- R153: the verdict of the table on a shot with its inputs present. -/
theorem sealEnd_verdict (h : TapVerdict s w p complete value) (hp : p.tetherEvaluated = true) (hf : (s.shot w).focusCheck ≠ none)
    (hq : (sealEnd s w p).dev ≠ .queued) (hr : (sealEnd s w p).dev ≠ .replaying) :
    (selected s (sealEnd s w p) = none → (sealEnd s w p).tether = .notSelected ∧ (sealEnd s w p).sendWhat = none ∧
      verdictQueue s w (statusShot ((sealWork s w).1.shot w) p) = s.tether.queue) ∧
    (∀ send, selected s (sealEnd s w p) = some send →
      (sealEnd s w p).tether = .queued ∧ (sealEnd s w p).sendWhat = some (degrade (sealEnd s w p) send) ∧
      (sealEnd s w p).tetherRaw = 0 ∧ (sealEnd s w p).tetherPreview = 0 ∧
      verdictQueue s w (statusShot ((sealWork s w).1.shot w) p) = insertEntry s.tether.queue
        { window := w, seq := (s.shot w).seq, send := degrade (sealEnd s w p) send, urgent := (s.shot w).urgent,
          ready := readyFlag (sealEnd s w p) (degrade (sealEnd s w p) send), forced := false }) := by
  have hseq : (sealEnd s w p).seq = (s.shot w).seq := sealEnd_record h Shot.seq
  have hurgent : (sealEnd s w p).urgent = (s.shot w).urgent := sealEnd_record h Shot.urgent
  have hfocus : (sealEnd s w p).focusCheck = (s.shot w).focusCheck := sealEnd_record h Shot.focusCheck
  rw [sealEnd_work Shot.seq] at hseq
  rw [sealEnd_work Shot.urgent] at hurgent
  rw [sealEnd_work Shot.focusCheck] at hfocus
  rw [sealEnd_work Shot.dev] at hq hr
  unfold sealEnd
  have htether : (statusShot ((sealWork s w).1.shot w) p).tether = .undecided := by
    rw [statusShot, hp]
    rfl
  have hinputs : (statusShot ((sealWork s w).1.shot w) p).inputsPresent = true :=
    inputsPresent_iff.mpr ⟨fun e => hf (hfocus.symm.trans e), hq, hr⟩
  have hseq' : (statusShot ((sealWork s w).1.shot w) p).seq = (s.shot w).seq := hseq
  have hurgent' : (statusShot ((sealWork s w).1.shot w) p).urgent = (s.shot w).urgent := hurgent
  generalize statusShot ((sealWork s w).1.shot w) p = x at htether hinputs hseq' hurgent'
  have hselected : selected s (verdictShot s x) = selected s x := verdictShot_field s x (selected s)
  have hdegrade (send : SendWhat) : degrade (verdictShot s x) send = degrade x send := verdictShot_field s x fun y => degrade y send
  have hready (send : SendWhat) : readyFlag (verdictShot s x) send = readyFlag x send := verdictShot_field s x fun y => readyFlag y send
  simp only [hselected, hdegrade, hready]
  simp only [verdictShot, verdictQueue, htether, hinputs, true_and, if_true]
  refine ⟨fun hnone => ?_, fun send hsome => ?_⟩
  · simp only [hnone, true_and]
  · simp only [hsome, joinedShot, joinedEntry, hseq', hurgent', Bool.false_or, true_and]

theorem tetherEntry_none {s : State} {w : Fin 64} (h : tetherEntry s w = none) : ∀ e ∈ s.tether.queue, e.window ≠ w := by
  simpa [tetherEntry, List.find?_eq_none] using h

/-- R37, R127: what a seal that keeps its shot leaves. -/
theorem sealShot_sealed (h : TapVerdict s w p complete value) (hk : p.cardRequired = true ∨ (s.shot w).protect = true)
    (cause : SealCause) : SealedFrom s (sealShot s w cause) w p complete value := by
  have hleft := sealReported_left h cause
  rw [sealShot_kept h hk]
  generalize sealReported s w cause = n at hleft
  obtain ⟨hshot, hothers, hmaps, hfree, hcontext, hreads, hheld, hengine, -, hentries, -⟩ := hleft
  have hrecord {α : Type} (f : Shot → α) (hf : ∀ (y : Shot) (d : DevStatus), f { y with dev := d } = f y := by intros; rfl) :
      f ((capturingFell (engineChoose n)).shot w) = f (sealEnd s w p) := by
    rw [capturingFell_field _ fun u => u.shot w]
    obtain k | ⟨-, k⟩ := engineChoose_shot n w
    · rw [k, hshot]
    · rw [k, hf, hshot]
  have hbusy (ha : n.engine.activity ≠ .idle) : (capturingFell (engineChoose n)).shot w = sealEnd s w p ∧
      (capturingFell (engineChoose n)).engine = (sealWork s w).1.engine ∧ (capturingFell (engineChoose n)).tether = n.tether := by
    rw [engineChoose_busy ha]
    exact ⟨(capturingFell_field n fun u => u.shot w).trans hshot, (capturingFell_field n State.engine).trans hengine,
      capturingFell_field n State.tether⟩
  have hactive (ha : s.engine.activity ≠ .idle) (hr : s.engine.activity ≠ .inline w ∨ ¬endsIncomplete s w complete) :
      n.engine.activity ≠ .idle := by
    rw [hengine, sealWork_running h hr]
    exact ha
  have hnot (hr : (s.shot w).tapStatus ≠ .inOrder ∨ complete = true) : ¬endsIncomplete s w complete := fun ⟨hs, hc⟩ =>
    hr.elim (fun k => k hs) fun k => Bool.noConfusion (hc.symm.trans k)
  exact {
    state := (hrecord Shot.state).trans (sealEnd_record h Shot.state)
    timer := (hrecord Shot.timer).trans (sealEnd_record h Shot.timer)
    card := (hrecord Shot.card).trans sealEnd_statuses.1
    verify := (hrecord Shot.verify).trans sealEnd_statuses.2
    untethered := fun hp => (hrecord Shot.tether).trans (sealEnd_unrequired hp)
    undecided := fun hp hf => (hrecord Shot.tether).trans (sealEnd_undecided h hp (.inl hf))
    awaited := fun hp ha hr hd => by
      obtain ⟨hu, -, -⟩ := hbusy (hactive ha (hr.imp id hnot))
      rw [hu] at hd ⊢
      exact sealEnd_undecided h hp (.inr hd)
    evaluated := fun hp hf ha hr hq hd he => by
      obtain ⟨hu, -, ht⟩ := hbusy (hactive ha (hr.imp id hnot))
      rw [hu] at hq hd ⊢
      rw [ht, hentries (tetherEntry_none he)]
      exact sealEnd_verdict h hp hf hq hd
    context := (contextOf_congr (by rw [capturingFell_field _ State.taps, engineChoose_field n State.taps]) w).trans hcontext
    maps := (capturingFell_field _ State.maps).trans ((engineChoose_field n State.maps).trans hmaps)
    free := (capturingFell_field _ fun u => u.pool.free).trans ((engineChoose_field n fun u => u.pool.free).trans hfree)
    others := fun v hv => (capturingFell_field _ fun u => (u.shot v).state).trans
      ((engineChoose_state n v).trans (by rw [hothers v hv]))
    tapStatus := (hrecord Shot.tapStatus).trans (sealEnd_record h Shot.tapStatus)
    crc := (hrecord Shot.crc).trans (sealEnd_record h Shot.crc)
    kept := fun hr ha => by
      obtain ⟨hu, he, -⟩ := hbusy (hactive ha (.inr (hnot hr)))
      obtain ⟨hx, hengine', -⟩ := sealWork_steady h (hnot hr)
      rw [hu, he, hengine', sealEnd_work Shot.dev, sealEnd_work Shot.reason, sealEnd_work Shot.checkOnly, hx]
      exact ⟨rfl, rfl, rfl, rfl⟩
    begins := fun hr ha hinline j rest hq hj => by
      subst hj
      obtain ⟨hx, hengine', -⟩ := sealWork_steady h (hnot hr)
      have hidle : n.engine.activity = .idle := by rw [hengine, hengine', ha]
      have hdev : (n.shot j.window).dev = (s.shot j.window).dev := by rw [hshot, sealEnd_work Shot.dev, hx]; rfl
      have hstate : (n.shot j.window).state = .sealed := by rw [hshot]; exact sealEnd_record h Shot.state
      have hprofile : (n.shot j.window).profile = some p := by
        rw [hshot]
        exact (sealEnd_record h Shot.profile).trans h.profile
      have hfree' (v : Fin 64) : (n.shot v).dev ≠ .inline := by
        by_cases hv : v = j.window
        · rw [hv, hdev]
          exact hinline j.window
        · rw [hothers v hv]
          exact hinline v
      rw [engineChoose_job (rest := rest) hidle hfree' (by rw [hengine, hengine', hq]) (by rw [hstate]; exact ShotState.noConfusion)]
      exact ((beginReplay_begun rest hprofile).since hmaps hreads hheld).shown (capturingFell_field _ State.engine)
        (capturingFell_field _ fun u => u.shot j.window) (capturingFell_field _ fun u => u.port.reads)
    check := fun hs hc ha hi hcrc hjob hroom => by
      obtain ⟨hu, he, -⟩ := hbusy (hactive ha (.inl hi))
      rw [hu, he, sealEnd_work Shot.dev, sealEnd_work Shot.reason, sealEnd_work Shot.checkOnly]
      exact sealWork_check h ⟨hs, hc⟩ hcrc hjob hroom
    full := fun hs hc ha hi hfull => by
      obtain ⟨hu, he, -⟩ := hbusy (hactive ha (.inl hi))
      rw [hu, he, sealEnd_work Shot.dev, sealEnd_work Shot.reason]
      exact sealWork_full h ⟨hs, hc⟩ hfull
    reservation := fun ha hi => by
      obtain ⟨hu, -, -⟩ := hbusy (hactive ha (.inl hi))
      rw [hu]
      exact sealEnd_reservation h }

end

/-! ### The causes of a seal -/

section
variable {s t u : State} {w : Fin 64} {p : Profile} {complete : Bool} {value : BitVec 32}

/-- State t is s, as far as a seal of the shot in window w looks at it, but for the shot's capture timer and its tap. -/
structure SealBase (s t : State) (w : Fin 64) : Prop where
  shot : ∃ d, t.shot w = { s.shot w with timer := d }
  others : ∀ v, v ≠ w → t.shot v = s.shot v
  engine : t.engine = s.engine
  tether : t.tether = s.tether
  maps : t.maps = s.maps
  free : t.pool.free = s.pool.free
  reads : t.port.reads = s.port.reads
  held : t.port.heldReads = s.port.heldReads

theorem SealedFrom.since (h : SealedFrom t u w p complete value) (k : SealBase s t w) : SealedFrom s u w p complete value := by
  obtain ⟨⟨d, hshot⟩, hothers, hengine, htether, hmaps, hfree, hreads, hheld⟩ := k
  have hentry : tetherEntry t w = tetherEntry s w := by rw [tetherEntry, htether, tetherEntry]
  have hjob : hasJob t w = hasJob s w := by rw [hasJob, hengine, hasJob]
  have hselected (x : Shot) : selected t x = selected s x := selected_congr (by rw [htether]) x
  have hdev (v : Fin 64) : (t.shot v).dev = (s.shot v).dev := by
    by_cases hv : v = w
    · rw [hv, hshot]
    · rw [hothers v hv]
  have hundecided := h.undecided
  have hawaited := h.awaited
  have hevaluated := h.evaluated
  have htapStatus := h.tapStatus
  have hcrc := h.crc
  have hkept := h.kept
  have hcheck := h.check
  have hfull := h.full
  have hreservation := h.reservation
  simp only [hselected, hentry, htether] at hevaluated
  simp only [hjob] at hcheck
  rw [hshot] at hundecided hawaited hevaluated htapStatus hcrc hkept hcheck hfull hreservation
  rw [hengine] at hawaited hevaluated hkept hcheck hfull hreservation
  exact {
    state := h.state
    timer := h.timer
    card := h.card
    verify := h.verify
    untethered := h.untethered
    undecided := hundecided
    awaited := hawaited
    evaluated := hevaluated
    context := h.context
    maps := h.maps.trans hmaps
    free := h.free.trans hfree
    others := fun v hv => (h.others v hv).trans (by rw [hothers v hv])
    tapStatus := htapStatus
    crc := hcrc
    kept := hkept
    begins := fun hr ha hinline j rest hq hj => by
      have hbegun := h.begins (by rw [hshot]; exact hr) (by rw [hengine]; exact ha) (fun v => by rw [hdev]; exact hinline v) j rest
        (by rw [hengine]; exact hq) hj
      exact hbegun.since hmaps hreads hheld
    check := hcheck
    full := hfull
    reservation := hreservation }

theorem SealedFrom.owing (h : SealedFrom s u w p complete value) (r : State) : SealedFrom s (u.owingSince r) w p complete value where
  state := h.state
  timer := h.timer
  card := h.card
  verify := h.verify
  untethered := h.untethered
  undecided := h.undecided
  awaited := h.awaited
  evaluated := h.evaluated
  context := h.context
  maps := h.maps
  free := h.free
  others := h.others
  tapStatus := h.tapStatus
  crc := h.crc
  kept := h.kept
  begins hr ha hinline j rest hq hj := (h.begins hr ha hinline j rest hq hj).shown rfl rfl rfl
  check := h.check
  full := h.full
  reservation := h.reservation

theorem sealShot_now (h : TapVerdict s w p complete value) (hk : p.cardRequired = true ∨ (s.shot w).protect = true)
    (cause : SealCause) : (sealShot s w cause).now = s.now := by
  rw [sealShot_kept h hk, capturingFell_field _ State.now, engineChoose_field _ State.now]
  exact (sealReported_left h cause).now

/-- A seal that the tap has the whole frame for leaves the FIFO to the engine. -/
theorem sealShot_fifo (h : TapVerdict s w p complete value) (hk : p.cardRequired = true ∨ (s.shot w).protect = true)
    (hno : ¬endsIncomplete s w complete) (cause : SealCause) : (sealShot s w cause).taps.fifo = s.taps.fifo := by
  rw [sealShot_kept h hk, capturingFell_field _ State.taps, engineChoose_field _ State.taps, (sealReported_left h cause).fifo]
  exact (sealWork_steady h hno).2.2

theorem TapVerdict.of_context {c : TapContext} (hp : (s.shot w).profile = some p) (hc : contextOf s w = some c)
    (hf : c.following = true) : TapVerdict s w p (decide (c.next = p.lines)) (crcFinish c.crc) where
  profile := hp
  whole := by rw [hc, Option.map_some, Option.getD_some, hf, Bool.true_and]
  sum _ := by rw [hc]; rfl

theorem TapVerdict.of_lost {c : TapContext} (hp : (s.shot w).profile = some p) (hc : contextOf s w = some c)
    (hf : c.following = false) : TapVerdict s w p false 0 where
  profile := hp
  whole := by rw [hc, Option.map_some, Option.getD_some, hf, Bool.false_and]
  sum h := Bool.noConfusion h

theorem exec_sealOrder {o : OrderRecord} {img : List Byte} (hd : dispatchedOrder s .seal = some (o, img)) (hn : Names s o w)
    (hs : (s.shot w).state = .capturing) : exec .sealOrder s = .next (finishOrder ((sealShot s w .order).owingSince s) o .done) := by
  refine runOrder_done hd ?_
  rw [sealOrderRule, forShot_named hn]
  exact if_pos hs

theorem exec_captureTimeout {d : Nat} (hd : (s.shot w).timer = .running d) (hs : (s.shot w).state = .capturing) :
    exec (.captureTimeout w) s = .next (sealShot (s.advanceTo d) w .timeout) := by
  have hexec : exec (.captureTimeout w) s = execCaptureTimeout w s := rfl
  rw [hexec, execCaptureTimeout, hd]
  exact congrArg _ (if_pos hs)

theorem advanceTo_base (s : State) (w : Fin 64) (d : Nat) : SealBase s (s.advanceTo d) w :=
  ⟨⟨(s.shot w).timer, rfl⟩, fun _ _ => rfl, rfl, rfl, rfl, rfl, rfl, rfl⟩

theorem lineStored_base (rest : List Request) (a : Nat) (data : List Byte) (mask : BitVec 64) :
    SealBase s (lineStored s rest w p a data mask) w :=
  ⟨⟨captureTimer s.now p, lineStored_shot⟩, fun _ hv => lineStored_shot_other hv, rfl, rfl, rfl, rfl, rfl, rfl⟩

theorem SealBase.taps (h : SealBase s t w) (x : Taps) : SealBase s { t with taps := x } w :=
  ⟨h.shot, h.others, h.engine, h.tether, h.maps, h.free, h.reads, h.held⟩

/-- R35: the final line of a frame, in a granule that is mapped. -/
theorem exec_finalLine {r : Request} {rest : List Request} {data : List Byte} {mask : BitVec 64} {o n : Nat}
    (htakes : TakesWrite s r rest data mask) (hspace : classify (lineAddr r) = .shot w o) (hclass : sourceClass r.tag = .capture)
    (hstate : (s.shot w).state = .capturing) (hp : (s.shot w).profile = some p) (hend : o + 64 = (s.shot w).rawLength)
    (hn : s.rawEntry w (o / Config.granule) = some n) :
    exec .takeWrite s = .next (sealShot (tapReceive (lineStored s rest w p (n * Config.granule + o % Config.granule) data mask) w
      (o / 64) (mask == fullMask) data) w .finalLine) := by
  have hstored := captureStore_mapped (s := freeWriteSlot s rest) (data := data) (mask := mask) hn
  rw [lineStored_eq rest _ data mask hp] at hstored
  have hcapturing : ((lineStored s rest w p (n * Config.granule + o % Config.granule) data mask).shot w).state = .capturing := by
    rw [lineStored_shot]; exact hstate
  have hlength := congrArg Shot.rawLength ((tapReceive_tapKept hcapturing (o / 64) (mask == fullMask) data).records w)
  rw [lineStored_shot] at hlength
  rw [exec_captureLine htakes hspace hclass hstate (by omega) hstored]
  generalize tapReceive _ w (o / 64) (mask == fullMask) data = t at hlength
  have hlength' : (t.shot w).rawLength = (s.shot w).rawLength := hlength
  rw [if_pos (by rw [hlength']; exact hend)]

end

/-! ### A seal that releases (R43, R44) -/

/-- A disordered shot that nothing keeps is released by its seal. -/
theorem sealShot_released {s : State} {w : Fin 64} {p : Profile} {complete : Bool} {value : BitVec 32}
    (h : TapVerdict s w p complete value) (hcard : p.cardRequired = false) (htether : p.tetherEvaluated = false)
    (hprotect : (s.shot w).protect = false) (hdev : (s.shot w).dev = .none) (htap : (s.shot w).tapStatus = .disordered)
    (ha : s.engine.activity ≠ .idle) (cause : SealCause) : Freed s (sealShot s w cause) w := by
  have hno : ¬endsIncomplete s w complete := fun ⟨k, _⟩ => TapStatus.noConfusion (htap.symm.trans k)
  have hleft := sealReported_left h cause
  obtain ⟨hx, hengine, -⟩ := sealWork_steady h hno
  have hreleasable : (sealEnd s w p).releasable = true := by
    have hcard' : (sealEnd s w p).card = .notRequired := by rw [sealEnd_statuses.1, hcard]; rfl
    have hprotect' : (sealEnd s w p).protect = false := (sealEnd_record h Shot.protect).trans hprotect
    have hdev' : (sealEnd s w p).dev = .none := by rw [sealEnd_work Shot.dev, hx]; exact hdev
    simp [Shot.releasable, hcard', hprotect', hdev', sealEnd_unrequired htether]
  rw [sealShot_eq]
  generalize sealReported s w cause = n at hleft
  have hstate : (n.shot w).state = .sealed := by rw [hleft.shot]; exact sealEnd_record h Shot.state
  have hactivity : (releaseCheck n w).engine.activity ≠ .idle := by
    rw [releaseCheck_field n w State.engine, hleft.engine, hengine]
    exact ha
  have hfreed : Freed s (releaseCheck n w) w := by
    rw [releaseCheck_released hstate (by rw [hleft.shot]; exact hreleasable)]
    exact (releaseShot_freed n w .released).since hleft.maps hleft.free hleft.others
  rw [engineChoose_busy hactivity]
  exact hfreed.shown (capturingFell_field _ State.shots) (capturingFell_field _ State.maps) (capturingFell_field _ fun u => u.pool.free)

end Sys2Proof.Machine

open Sys2Proof Sys2Proof.Machine

set_option Elab.async false

/-- Settles O39. -/
theorem sealLeavesShotSealed : Obligations.SealLeavesShotSealed := by
  intro s w p complete value hstate hp
  refine ⟨fun hk => ⟨fun hcomplete hvalue => ⟨fun o img hd hn => ?_, fun d hd => ?_⟩, ?_⟩, ?_⟩
  · have hverdict : TapVerdict s w p complete value := ⟨hp, hcomplete, fun _ => hvalue⟩
    exact ⟨_, exec_sealOrder hd hn hstate, (sealShot_sealed hverdict hk .order).owing s⟩
  · have hverdict : TapVerdict (s.advanceTo d) w p complete value := ⟨hp, hcomplete, fun _ => hvalue⟩
    refine ⟨_, exec_captureTimeout hd hstate, ?_, (sealShot_sealed hverdict hk .timeout).since (advanceTo_base s w d)⟩
    rw [sealShot_now hverdict hk]
    exact le_max_right _ _
  · intro r rest data mask o n c htakes hspace hclass hend hn hc
    have hexec := exec_finalLine htakes hspace hclass hstate hp hend hn
    have hstands := lineStored_stands rest (n * Config.granule + o % Config.granule) data mask hc hp hstate
    have hbase := lineStored_base (s := s) (w := w) (p := p) rest (n * Config.granule + o % Config.granule) data mask
    have hshot : (lineStored s rest w p (n * Config.granule + o % Config.granule) data mask).shot w =
      { s.shot w with timer := captureTimer s.now p } := lineStored_shot
    generalize lineStored s rest w p (n * Config.granule + o % Config.granule) data mask = v at hexec hstands hbase hshot ⊢
    have hrecord := (tapReceive_tapKept hstands.state (o / 64) (mask == fullMask) data).records w
    have hfields : ((tapReceive v w (o / 64) (mask == fullMask) data).shot w).profile = some p ∧
        ((tapReceive v w (o / 64) (mask == fullMask) data).shot w).protect = (s.shot w).protect := by
      rw [hshot] at hrecord
      have e := congrArg Shot.profile hrecord
      have e' := congrArg Shot.protect hrecord
      exact ⟨e.trans hp, e'⟩
    refine ⟨fun hmask hf hl => ⟨fun hno hroom => ?_, fun z a f m hr hs hline hlast hfeed hsetup hm => ?_⟩, fun hf hout ha => ?_, fun hf => ?_⟩
    · have hadvanced := hstands.advanced (data := data) hf hmask hl hno hroom
      generalize tapReceive v w (o / 64) (mask == fullMask) data = t at hadvanced hexec hfields
      obtain ⟨hprofile, hprotect⟩ := hfields
      have hk' : p.cardRequired = true ∨ (t.shot w).protect = true := by rw [hprotect]; exact hk
      have hverdict : TapVerdict t w p (decide (c.next + 1 = p.lines)) (crcFinish (crcBytes c.crc data)) := by
        rw [hl]
        exact .of_context hprofile hadvanced.became.context hf
      refine ⟨_, hexec, ?_, fun hwhole _ => ?_⟩
      · obtain ⟨x, hx⟩ := hadvanced.of_taps
        exact (sealShot_sealed hverdict hk' .finalLine).since (by rw [hx]; exact hbase.taps x)
      · rw [sealShot_fifo hverdict hk' (fun ⟨_, hno⟩ => by simp [hwhole] at hno) .finalLine, hadvanced.fifo]
    · obtain ⟨t, htap, hended, -, hreports, -⟩ := hstands.checks (data := data) hf hmask hl hr hs hline hlast hfeed hsetup hm
      rw [htap] at hexec hfields
      obtain ⟨hprofile, hprotect⟩ := hfields
      have hverdict : TapVerdict t w p (decide (c.next + 1 = p.lines)) (crcFinish (crcBytes c.crc data)) := by
        rw [hl]
        exact .of_context hprofile hended.context hf
      exact ⟨t, _, hexec, hreports, sealShot_sealed hverdict (by rw [hprotect]; exact hk) .finalLine⟩
    · obtain ⟨hdisordered, hlost⟩ := hstands.disorders (data := data) hf hout ha
      generalize tapReceive v w (o / 64) (mask == fullMask) data = t at hdisordered hlost hexec hfields
      obtain ⟨hprofile, hprotect⟩ := hfields
      rw [hshot] at hdisordered
      exact ⟨t, _, hexec, hdisordered, sealShot_sealed (.of_lost hprofile hlost.context rfl) (by rw [hprotect]; exact hk) .finalLine⟩
    · rw [tapReceive_ignored (o / 64) (mask == fullMask) data hstands.context hstands.profile hf] at hexec hfields
      obtain ⟨hprofile, hprotect⟩ := hfields
      exact ⟨_, hexec, (sealShot_sealed (.of_lost hprofile hstands.context hf) (by rw [hprotect]; exact hk) .finalLine).since hbase⟩
  · intro hcard htether hprotect hdev htap ha o img hd hn
    have hverdict : TapVerdict s w p (((contextOf s w).map fun c => c.following && decide (c.next = p.lines)).getD false)
        (((contextOf s w).map fun c => crcFinish c.crc).getD 0) := ⟨hp, rfl, fun _ => rfl⟩
    have hfreed := sealShot_released hverdict hcard htether hprotect hdev htap ha .order
    exact ⟨_, exec_sealOrder hd hn hstate, hfreed.shown (owing_field _ s State.shots) (owing_field _ s State.maps) (owing_field _ s fun u => u.pool.free)⟩

end
